-- ==== Sys2Proof/Word.lean ====
section
/-!
DEFINITION. The machine's words: the bit strings the manual moves, shifts and masks (R5, R97, R105).
-/

namespace Sys2Proof

/-- One byte of memory. -/
abbrev Byte := BitVec 8

/-- An instruction word (R105). -/
abbrev IWord := BitVec 32

/-- A doubleword: a g register, an address, a control register (R97, R234). -/
abbrev Word := BitVec 64

/-- The number of a g register or a v register: a 5-bit field (R97). -/
abbrev Reg := BitVec 5

/-- The number of a mask register (R97). -/
abbrev MReg := BitVec 3

/-- The number of an accumulator (R97). -/
abbrev AccN := BitVec 3

/-- One vector register of one strand: 2,048 bits for each of up to eight slots, slot j at bit 2048j (R139). -/
abbrev VReg := BitVec 16384

/-- One mask register: 4,096 bits (R19). -/
abbrev Mask := BitVec 4096

/-- One accumulator: 16,384 bytes, byte k at bit 8k (R183). -/
abbrev Acc := BitVec 131072

/-- One lane slice: 4 KiB, byte k at bit 8k (R55, R57). -/
abbrev Slice := BitVec 32768

/-- The six sticky flags: NV 0, DZ 1, OF 2, UF 3, NX 4, SAT 5 (R92). -/
abbrev Flags := BitVec 6

/-- A 96-bit cell instruction word (R252). -/
abbrev CellWord := BitVec 96

end Sys2Proof
end

