-- ==== Sys2Proof/Machine/Bits.lean ====
section
/-!
DEFINITION. Bit fields, sign extension and byte order: the helpers the pseudocode of the manual uses (R105, R113, R114).
-/

namespace Sys2Proof.Machine

/-- The n-bit field of x at bit lo, as a number. -/
def field {w : Nat} (x : BitVec w) (lo n : Nat) : Nat := (x.toNat >>> lo) % 2 ^ n

/-- SignExtend(x, w) of R114, into a doubleword. -/
def sext {n : Nat} (x : BitVec n) : Word := x.signExtend 64

/-- ZeroExtend(x, w) of R114, into a doubleword. -/
def zext {n : Nat} (x : BitVec n) : Word := x.setWidth 64

/-- The low 32 bits of a doubleword. -/
def lo32 (x : Word) : BitVec 32 := x.setWidth 32

/-- A truth value as a doubleword. -/
def ofBool (b : Bool) : Word := if b then 1 else 0

/-- The number that a little-endian byte string holds (R105, R114). -/
def leNat : List Byte → Nat
  | [] => 0
  | b :: bs => b.toNat + 256 * leNat bs

/-- The n low bytes of x, little-endian. -/
def leBytes : Nat → Nat → List Byte
  | 0, _ => []
  | n + 1, x => BitVec.ofNat 8 x :: leBytes n (x / 256)

/-- x with its n-bit field at bit lo replaced by v. -/
def setField {w : Nat} (x : BitVec w) (lo n : Nat) (v : Nat) : BitVec w :=
  BitVec.ofNat w (x.toNat - (((x.toNat >>> lo) % 2 ^ n) <<< lo) + ((v % 2 ^ n) <<< lo))

/-- Bit i of x as 0 or 1. -/
def bit {w : Nat} (x : BitVec w) (i : Nat) : Nat := field x i 1

/-- The number of one bits among the n low bits of x. -/
def popCount : Nat → Nat → Nat
  | 0, _ => 0
  | n + 1, x => x % 2 + popCount n (x / 2)

/-- The number of trailing zero bits of an n-bit x; n for zero. -/
def trailingZeros : Nat → Nat → Nat
  | 0, _ => 0
  | n + 1, x => if x % 2 = 1 then 0 else 1 + trailingZeros n (x / 2)

/-- The number of leading zero bits of an n-bit x; n for zero. -/
def leadingZeros : Nat → Nat → Nat
  | 0, _ => 0
  | n + 1, x => if x.testBit n then 0 else 1 + leadingZeros n x

/-- The n-bit x with its bits in reverse order. -/
def reverseBits : Nat → Nat → Nat
  | 0, _ => 0
  | n + 1, x => (x % 2) * 2 ^ n + reverseBits n (x / 2)

/-- The number of bits of n: 0 for 0, otherwise the place of its highest one bit plus 1. -/
def bitLength (n : Nat) : Nat := if n = 0 then 0 else Nat.log2 n + 1

/-- a rounded down to a multiple of n. -/
def alignDown (a n : Nat) : Nat := a - a % n

/-- ceil(a / n). -/
def ceilDiv (a n : Nat) : Nat := (a + n - 1) / n

end Sys2Proof.Machine
end

