-- ==== Sys2Proof/Config.lean ====
section
/-!
DEFINITION. What one part fixes at manufacture, and the values the manual leaves open.
Every constant here is opaque: no proof can see a value of it, so a statement holds whatever the value is.
The assumption log names each one.
-/

namespace Sys2Proof.Config

/-- The value the k-th open value of a run takes, where the manual states an effect and no value. -/
opaque freeWord : Nat → Word

/-- Which of the n things listed gives way at a time when a full cache or translation buffer takes a new one; the manual gives no
replacement rule (R59, R60, R369). -/
opaque victim : (time : Nat) → (listed : List Nat) → Nat

/-- Whether an ECDSA P-384 signature (r, s) verifies over signed bytes under the key with this SHA-384 hash (R402). -/
opaque ecdsaVerifies : (rootHash : BitVec 384) → (signed : List Byte) → (signature : List Byte) → Bool

/-- Whether an LMS signature verifies over signed bytes under the key with this SHA-256 hash (R402). -/
opaque lmsVerifies : (rootHash : BitVec 256) → (signed : List Byte) → (signature : List Byte) → Bool

/-- The SHA-384 measurement of a block's bytes (R406, R407). -/
opaque sha384 : List Byte → BitVec 384

/-- The ROM that SPDM block 1 measures (R407). -/
opaque romBytes : List Byte

/-- The alias ECDSA signature over a report (R406, R407): the device secret, the running image's measurement, the bytes signed. -/
opaque ecdsaSign : (uds : BitVec 256) → (measurement : BitVec 384) → (signed : List Byte) → List Byte

/-- The alias LMS signature over a report, with the leaf it uses (R406, R407). -/
opaque lmsSign : (uds : BitVec 256) → (measurement : BitVec 384) → (tree leaf : Nat) → (signed : List Byte) → List Byte

/-- The certificate chain of the alias keys: of the ECDSA pair, and of the alias LMS tree, which a leaf of the DeviceID LMS key
certifies (R406, R407). -/
opaque certificates : (uds : BitVec 256) → (measurement : BitVec 384) → (tree deviceLeaf : Nat) → List Byte

/-- The OTP fields fused at manufacture (R405). -/
opaque otpEcdsaRoot : BitVec 384
opaque otpLmsRoot : BitVec 256
opaque otpUds : BitVec 256
opaque otpEraseMask : BitVec 8
opaque otpLock : Bool

/-- What the boot flash of the module board holds at manufacture: image slots A and B and the partition layout (R400, R418). -/
opaque flashSlotA : List Byte
opaque flashSlotB : List Byte

/-- The 32-byte entry of a port in the fabric state region, whose layout the manual does not give (R381): scoreboard state,
descriptor address, next element. -/
opaque portEntry : (state : Nat) → (descriptor : Word) → (index : Nat) → BitVec 256

/-- The bytes of section 2 of a dump, whose layout the manual does not give (R410): each listed line's directory state, then the
entries of the reservation tables, as numbers. -/
opaque dumpDirectory : List (List Nat) → List (List Nat) → List Byte

/-- The bytes of a dispatcher's resume queue in section 3 of a dump, whose layout the manual does not give (R382, R410): for each entry
its level, its times, and the records of its members, as numbers. -/
opaque dumpResume : List (List Nat) → List Byte

/-- How long the writing of a dump takes, in ns; the manual gives no time (R410). -/
opaque dumpNanos : Nat

/-- The bytes left free before section k of a dump; the manual gives no offsets (R410). -/
opaque dumpGap : (section_ : Nat) → BitVec 12

/-- Whether the k-th write of a leaf counter to the boot flash fails (R406). -/
opaque flashFails : Nat → Bool

end Sys2Proof.Config
end

