-- ==== Sys2Proof/Machine/Table.lean ====
section
/-!
DEFINITION. Finite tables as plain data: a list of (key, entry) pairs with rising keys. A key that is not listed reads
as the table's default, so one entry is stored once and only where something has changed.
-/

namespace Sys2Proof.Machine

/-- A table keyed by a number: pairs with rising keys. -/
abbrev Table (α : Type) := List (Nat × α)

/-- The entry of key k, or the default. -/
def Table.find {α : Type} (dflt : α) : Table α → Nat → α
  | [], _ => dflt
  | (k', v) :: rest, k => if k = k' then v else Table.find dflt rest k

/-- The table with entry v at key k, the other entries as they were. -/
def Table.put {α : Type} : Table α → Nat → α → Table α
  | [], k, v => [(k, v)]
  | (k', v') :: rest, k, v =>
    if k < k' then (k, v) :: (k', v') :: rest
    else if k = k' then (k, v) :: rest
    else (k', v') :: Table.put rest k v

/-- The table without an entry at key k. -/
def Table.drop {α : Type} (t : Table α) (k : Nat) : Table α := t.filter (fun e => e.1 != k)

/-- The listed entry of key k, if there is one. -/
def Table.get? {α : Type} : Table α → Nat → Option α
  | [], _ => none
  | (k', v) :: rest, k => if k = k' then some v else Table.get? rest k

end Sys2Proof.Machine
end

