-- ==== Sys2Proof/Syntax.lean ====
section
/-!
DEFINITION. The instructions: one constructor for each row of spec/opcode_table.json.
298 rows are 32-bit instruction words (R105 to R111); the other 73 are the machine's own steps, the EVENTS, which no
word encodes (spec/95). An event carries, as arguments, what the manual leaves open about it or what comes from outside.
-/

namespace Sys2Proof

/-- The V integer types, in the order of their codes 0 to 7 (R98). -/
inductive IntTy where
  | s64 | s32 | s16 | s8 | n64 | n32 | n16 | n8
deriving DecidableEq, Repr

/-- The V floating types of arithmetic: codes 0, 1, 3 and 4 (R154). -/
inductive FTy where
  | f64 | f32 | bf16 | f16
deriving DecidableEq, Repr

/-- The source types of floating widening arithmetic: codes 1, 3 and 4 (R157). -/
inductive FWTy where
  | f32 | bf16 | f16
deriving DecidableEq, Repr

/-- The source types of integer widening arithmetic: codes 1 to 3 and 5 to 7 (R157). -/
inductive WIntTy where
  | s32 | s16 | s8 | n32 | n16 | n8
deriving DecidableEq, Repr

/-- The source types of VDOT, and of the 8-bit integer forms of MOPA: codes 3 and 7 (R157). -/
inductive ByteTy where
  | s8 | n8
deriving DecidableEq, Repr

/-- The source types of VFDOT: codes 3 to 6 (R157). -/
inductive DotTy where
  | bf16 | f16 | e5m2 | e4m3
deriving DecidableEq, Repr

/-- The precision bit of scalar floating point (R127). -/
inductive FPrec where
  | f64 | f32
deriving DecidableEq, Repr

/-- The VM width codes 0 to 5, which are also the values of VCFG.EW (R98, R235). -/
inductive Width where
  | w8 | w16 | w32 | w64 | w4 | w6
deriving DecidableEq, Repr

/-- The VM width codes 0 to 3 (R165). -/
inductive Width4 where
  | w8 | w16 | w32 | w64
deriving DecidableEq, Repr

/-- The width codes of VSEND: 2 and 3 (R165). -/
inductive SendW where
  | w32 | w64
deriving DecidableEq, Repr

/-- The source types of VLW: width codes 0 and 4 (R165). -/
inductive VlwTy where
  | e4m3 | e2m1
deriving DecidableEq, Repr

/-- The MX types, codes 0 to 11 (R98). -/
inductive MxTy where
  | f64 | f32 | tf32 | bf16 | f16 | e5m2 | e4m3 | e3m2 | e2m3 | e2m1 | s8 | n8
deriving DecidableEq, Repr

/-- The mixed operand types of major 0x31, functions 0 to 3 (R191). -/
inductive MixTy where
  | s8n8 | n8s8 | e5m2e4m3 | e4m3e5m2
deriving DecidableEq, Repr

/-- The floating formats that convert to and from FP32, codes 0 to 8 (R158). -/
inductive CvtF where
  | f64 | tf32 | bf16 | f16 | e5m2 | e4m3 | e3m2 | e2m3 | e2m1
deriving DecidableEq, Repr

/-- The destination codes 0 to 7 of an integer-to-integer conversion (R158). -/
inductive CvtD where
  | wide | narrow | flip | flipNarrow | s4 | n4 | s6 | n6
deriving DecidableEq, Repr

/-- The function field of VCVT (R158). -/
inductive CvtOp where
  | fromF32 (x : CvtF)
  | toF32 (x : CvtF)
  | fToI (p : FPrec) (i : IntTy)
  | iToF (p : FPrec) (i : IntTy)
  | iToI (i : IntTy) (d : CvtD)
deriving DecidableEq, Repr

/-- The ordering of an atomic (R112). -/
inductive Ord4 where
  | none | aq | rl | aqrl
deriving DecidableEq, Repr

/-- The qualifiers of an atomic: ordering, 64-bit size, scope register (R112). -/
structure AmoQual where
  ord : Ord4
  dbl : Bool
  scope : BitVec 4
deriving DecidableEq, Repr

/-- The condition of a WAITA, functions 4 to 7 and 8 to 11 (R208). -/
inductive WCond where
  | eq | ne | geu | ltu
deriving DecidableEq, Repr

/-- The mask fields me (on) and mk (num) of a V or VM word (R106). With me = 0 every element below VL is active (R114). -/
structure VMask where
  on : Bool
  num : MReg
deriving DecidableEq, Repr

/-- The kinds of access of R362. -/
inductive AccKind where
  | fetch | load | store
deriving DecidableEq, Repr

/-- Who sends a request over CXL (R275). -/
inductive Requester where
  | host | peer (m : Nat)
deriving DecidableEq, Repr

/-- A copy of a 64-byte half held outside the module: none, shared, exclusive (R390). -/
inductive Half where
  | n | s | e
deriving DecidableEq, Repr

/-- An error that reaches an engine from outside its command (R214, R219, R389). -/
inductive EngErr where
  | rankFailure (unitsDone : Nat) | timeout (unitsDone : Nat)
deriving DecidableEq, Repr

/-- A register as a function's BAR0 names it: by the place of a compute die or a memory-side die among the dies of its
partition, in ascending order, and the offset in its block; or by the offset in the Cogor mailbox (R346, R404, R412; log 40). -/
inductive BarReg where
  | block (die : Nat) (off : Nat)
  | memorySide (die : Nat) (off : Nat)
  | mailbox (off : Nat)
deriving DecidableEq, Repr

/-- An access of size bytes to a register through the BAR0 of function fn (R346, R347). -/
structure BarAccess where
  fn : Nat
  reg : BarReg
  size : Nat
deriving DecidableEq, Repr

/-- Bytes that come over CXL, with their poison (R388). -/
structure Payload where
  bytes : List Byte
  poison : Bool
deriving DecidableEq, Repr

/-- What a request for measurements asks for: a block, or all at 0xFF, and whether the answer is signed (R407). -/
structure MeasureAsk where
  block : Nat
  signed : Bool
deriving DecidableEq, Repr

/-- A soft error, by the store it strikes (R416). A lane slice is named by its tile and lane, and the struck half by its number. -/
inductive SoftErr where
  | memory (line : Nat) (high : Bool) (corrected : Bool)
  | scratchpad (line : Nat) (high : Bool) (corrected : Bool)
  | slice (tile : Nat) (lane : Nat) (half : Nat) (corrected : Bool)
  | cleanCopy (die : Nat) (corrected : Bool)
  | dirtyCopy (die : Nat) (line : Nat) (high : Bool) (corrected : Bool)
  | fetchLine (die : Nat)
  | registers (strand : Nat) (corrected : Bool)
  | directory (unit : Nat) (reservationTable : Bool) (corrected : Bool)
  | dispatcher (unit : Nat) (corrected : Bool)
deriving DecidableEq, Repr

/-- The machine's steps. -/
inductive Instr where
  -- Integer register operations, major 0x01 (R118, R119)
  | add (d : Reg) (a : Reg) (b : Reg)  -- ADD: R118
  | sub (d : Reg) (a : Reg) (b : Reg)  -- SUB: R118
  | and (d : Reg) (a : Reg) (b : Reg)  -- AND: R118
  | or (d : Reg) (a : Reg) (b : Reg)  -- OR: R118
  | xor (d : Reg) (a : Reg) (b : Reg)  -- XOR: R118
  | nor (d : Reg) (a : Reg) (b : Reg)  -- NOR: R118
  | andn (d : Reg) (a : Reg) (b : Reg)  -- ANDN: R118
  | orn (d : Reg) (a : Reg) (b : Reg)  -- ORN: R118
  | sll (d : Reg) (a : Reg) (b : Reg)  -- SLL: R118
  | srl (d : Reg) (a : Reg) (b : Reg)  -- SRL: R118
  | sra (d : Reg) (a : Reg) (b : Reg)  -- SRA: R118
  | ror (d : Reg) (a : Reg) (b : Reg)  -- ROR: R118
  | setlt (d : Reg) (a : Reg) (b : Reg)  -- SETLT: R118
  | setltn (d : Reg) (a : Reg) (b : Reg)  -- SETLTN: R118
  | seteq (d : Reg) (a : Reg) (b : Reg)  -- SETEQ: R118
  | setne (d : Reg) (a : Reg) (b : Reg)  -- SETNE: R118
  | min (d : Reg) (a : Reg) (b : Reg)  -- MIN: R118
  | max (d : Reg) (a : Reg) (b : Reg)  -- MAX: R118
  | minu (d : Reg) (a : Reg) (b : Reg)  -- MINU: R118
  | maxu (d : Reg) (a : Reg) (b : Reg)  -- MAXU: R118
  | add32 (d : Reg) (a : Reg) (b : Reg)  -- ADD32: R118
  | sub32 (d : Reg) (a : Reg) (b : Reg)  -- SUB32: R118
  | sll32 (d : Reg) (a : Reg) (b : Reg)  -- SLL32: R118
  | srl32 (d : Reg) (a : Reg) (b : Reg)  -- SRL32: R118
  | sra32 (d : Reg) (a : Reg) (b : Reg)  -- SRA32: R118
  | addo (d : Reg) (a : Reg) (b : Reg)  -- ADDO: R118
  | subo (d : Reg) (a : Reg) (b : Reg)  -- SUBO: R118
  | addsc1 (d : Reg) (a : Reg) (b : Reg)  -- ADDSC1: R118
  | addsc2 (d : Reg) (a : Reg) (b : Reg)  -- ADDSC2: R118
  | addsc3 (d : Reg) (a : Reg) (b : Reg)  -- ADDSC3: R118
  -- Multiply and divide, major 0x02 (R122, R123)
  | mul (d : Reg) (a : Reg) (b : Reg)  -- MUL: R122
  | mulhs (d : Reg) (a : Reg) (b : Reg)  -- MULHS: R122
  | mulhn (d : Reg) (a : Reg) (b : Reg)  -- MULHN: R122
  | mulhsn (d : Reg) (a : Reg) (b : Reg)  -- MULHSN: R122
  | mul32 (d : Reg) (a : Reg) (b : Reg)  -- MUL32: R122
  | divs (d : Reg) (a : Reg) (b : Reg)  -- DIVS: R122
  | divn (d : Reg) (a : Reg) (b : Reg)  -- DIVN: R122
  | rems (d : Reg) (a : Reg) (b : Reg)  -- REMS: R122
  | remn (d : Reg) (a : Reg) (b : Reg)  -- REMN: R122
  | divs32 (d : Reg) (a : Reg) (b : Reg)  -- DIVS32: R122
  | divn32 (d : Reg) (a : Reg) (b : Reg)  -- DIVN32: R122
  | rems32 (d : Reg) (a : Reg) (b : Reg)  -- REMS32: R122
  | remn32 (d : Reg) (a : Reg) (b : Reg)  -- REMN32: R122
  -- Bit counts and bit fields, major 0x03 (R124, R125)
  | clz (d : Reg) (a : Reg)  -- CLZ: R124
  | ctz (d : Reg) (a : Reg)  -- CTZ: R124
  | popc (d : Reg) (a : Reg)  -- POPC: R124
  | brev (d : Reg) (a : Reg)  -- BREV: R124
  | bswap (d : Reg) (a : Reg)  -- BSWAP: R124
  | extS (d : Reg) (a : Reg) (b : Reg)  -- EXT: R125
  | extU (d : Reg) (a : Reg) (b : Reg)  -- EXTU: R125
  | ins (d : Reg) (a : Reg) (b : Reg)  -- INS: R125
  | clz32 (d : Reg) (a : Reg)  -- CLZ32: R124
  | ctz32 (d : Reg) (a : Reg)  -- CTZ32: R124
  | popc32 (d : Reg) (a : Reg)  -- POPC32: R124
  | bswap32 (d : Reg) (a : Reg)  -- BSWAP32: R124
  -- Immediates, majors 0x04 to 0x0D (R120, R121)
  | addi (d : Reg) (a : Reg) (imm : BitVec 16)  -- ADDI: R120
  | andi (d : Reg) (a : Reg) (imm : BitVec 16)  -- ANDI: R120
  | ori (d : Reg) (a : Reg) (imm : BitVec 16)  -- ORI: R120
  | xori (d : Reg) (a : Reg) (imm : BitVec 16)  -- XORI: R120
  | setlti (d : Reg) (a : Reg) (imm : BitVec 16)  -- SETLTI: R120
  | setltni (d : Reg) (a : Reg) (imm : BitVec 16)  -- SETLTNI: R120
  | slli (d : Reg) (a : Reg) (n : BitVec 6)  -- SLLI: R121
  | srli (d : Reg) (a : Reg) (n : BitVec 6)  -- SRLI: R121
  | srai (d : Reg) (a : Reg) (n : BitVec 6)  -- SRAI: R121
  | rori (d : Reg) (a : Reg) (n : BitVec 6)  -- RORI: R121
  | lui (d : Reg) (imm : BitVec 16)  -- LUI: R120
  | addpc (d : Reg) (imm : BitVec 16)  -- ADDPC: R120
  | shori (d : Reg) (a : Reg) (imm : BitVec 16)  -- SHORI: R120
  -- Scalar floating point, major 0x0E (R126 to R129)
  | fadd (p : FPrec) (d : Reg) (a : Reg) (b : Reg)  -- FADD: R127
  | fsub (p : FPrec) (d : Reg) (a : Reg) (b : Reg)  -- FSUB: R127
  | fmul (p : FPrec) (d : Reg) (a : Reg) (b : Reg)  -- FMUL: R127
  | fdiv (p : FPrec) (d : Reg) (a : Reg) (b : Reg)  -- FDIV: R127
  | fsqrt (p : FPrec) (d : Reg) (a : Reg)  -- FSQRT: R127
  | fmin (p : FPrec) (d : Reg) (a : Reg) (b : Reg)  -- FMIN: R127
  | fmax (p : FPrec) (d : Reg) (a : Reg) (b : Reg)  -- FMAX: R127
  | fmac (p : FPrec) (d : Reg) (a : Reg) (b : Reg)  -- FMAC: R127
  | fmsc (p : FPrec) (d : Reg) (a : Reg) (b : Reg)  -- FMSC: R127
  | fcmpeq (p : FPrec) (d : Reg) (a : Reg) (b : Reg)  -- FCMPEQ: R127
  | fcmplt (p : FPrec) (d : Reg) (a : Reg) (b : Reg)  -- FCMPLT: R127
  | fcmple (p : FPrec) (d : Reg) (a : Reg) (b : Reg)  -- FCMPLE: R127
  | fkind (p : FPrec) (d : Reg) (a : Reg)  -- FKIND: R127
  | fcvti (p : FPrec) (rtz : Bool) (d : Reg) (a : Reg)  -- FCVTI: R129
  | fcvtiu (p : FPrec) (rtz : Bool) (d : Reg) (a : Reg)  -- FCVTIU: R129
  | fcvtf (p : FPrec) (d : Reg) (a : Reg)  -- FCVTF: R127
  | fcvtfu (p : FPrec) (d : Reg) (a : Reg)  -- FCVTFU: R127
  | fcvtp (p : FPrec) (d : Reg) (a : Reg)  -- FCVTP: R127
  | fcopys (p : FPrec) (d : Reg) (a : Reg) (b : Reg)  -- FCOPYS: R127
  | fcopysn (p : FPrec) (d : Reg) (a : Reg) (b : Reg)  -- FCOPYSN: R127
  -- Branches and jumps, majors 0x0F to 0x17 (R130 to R132)
  | jalr (d : Reg) (a : Reg) (imm : BitVec 16)  -- JALR: R132
  | beq (a : Reg) (b : Reg) (off : BitVec 16)  -- BEQ: R130
  | bne (a : Reg) (b : Reg) (off : BitVec 16)  -- BNE: R130
  | blt (a : Reg) (b : Reg) (off : BitVec 16)  -- BLT: R130
  | bge (a : Reg) (b : Reg) (off : BitVec 16)  -- BGE: R130
  | bltu (a : Reg) (b : Reg) (off : BitVec 16)  -- BLTU: R130
  | bgeu (a : Reg) (b : Reg) (off : BitVec 16)  -- BGEU: R130
  | j (off : BitVec 26)  -- J: R131
  | jal (off : BitVec 26)  -- JAL: R131
  -- Loads, stores, prefetch, majors 0x18 to 0x1E (R134, R135, R138)
  | ld (d : Reg) (a : Reg) (disp : BitVec 16)  -- LD: R134
  | lw (d : Reg) (a : Reg) (disp : BitVec 16)  -- LW: R134
  | lwu (d : Reg) (a : Reg) (disp : BitVec 16)  -- LWU: R134
  | sd (d : Reg) (a : Reg) (disp : BitVec 16)  -- SD: R134
  | sw (d : Reg) (a : Reg) (disp : BitVec 16)  -- SW: R134
  | prfRd (a : Reg) (disp : BitVec 16)  -- PRF_RD: R138
  | prfWr (a : Reg) (disp : BitVec 16)  -- PRF_WR: R138
  | lb (d : Reg) (a : Reg) (b : Reg)  -- LB: R135
  | lbu (d : Reg) (a : Reg) (b : Reg)  -- LBU: R135
  | lh (d : Reg) (a : Reg) (b : Reg)  -- LH: R135
  | lhu (d : Reg) (a : Reg) (b : Reg)  -- LHU: R135
  | sb (d : Reg) (a : Reg) (b : Reg)  -- SB: R135
  | sh (d : Reg) (a : Reg) (b : Reg)  -- SH: R135
  -- Atomics, major 0x1F (R112, R202 to R207)
  | lr (q : AmoQual) (d : Reg) (a : Reg)  -- LR: R206
  | sc (q : AmoQual) (d : Reg) (a : Reg) (b : Reg)  -- SC: R205
  | amoswap (q : AmoQual) (d : Reg) (a : Reg) (b : Reg)  -- AMOSWAP: R205
  | amoadd (q : AmoQual) (d : Reg) (a : Reg) (b : Reg)  -- AMOADD: R205
  | amoand (q : AmoQual) (d : Reg) (a : Reg) (b : Reg)  -- AMOAND: R205
  | amoor (q : AmoQual) (d : Reg) (a : Reg) (b : Reg)  -- AMOOR: R205
  | amoxor (q : AmoQual) (d : Reg) (a : Reg) (b : Reg)  -- AMOXOR: R205
  | amomin (q : AmoQual) (d : Reg) (a : Reg) (b : Reg)  -- AMOMIN: R205
  | amomax (q : AmoQual) (d : Reg) (a : Reg) (b : Reg)  -- AMOMAX: R205
  | amominu (q : AmoQual) (d : Reg) (a : Reg) (b : Reg)  -- AMOMINU: R205
  | amomaxu (q : AmoQual) (d : Reg) (a : Reg) (b : Reg)  -- AMOMAXU: R205
  | amocas (q : AmoQual) (d : Reg) (a : Reg) (b : Reg)  -- AMOCAS: R205
  -- Vector configuration and moves, major 0x20 (R144, R149)
  | setvl (w : Width) (d : Reg) (a : Reg)  -- SETVL: R144
  | vsplat (t : IntTy) (d : Reg) (a : Reg) (k : VMask)  -- VSPLAT: R149
  | vmvg (t : IntTy) (d : Reg) (a : Reg) (b : Reg)  -- VMVG: R149
  | vmvv (t : IntTy) (d : Reg) (a : Reg) (b : Reg)  -- VMVV: R149
  | vid (t : IntTy) (d : Reg) (k : VMask)  -- VID: R149
  | vmv (t : IntTy) (d : Reg) (a : Reg) (k : VMask)  -- VMV: R149
  | vmerge (t : IntTy) (d : Reg) (a : Reg) (b : Reg) (mk : MReg)  -- VMERGE: R149
  -- Mask instructions, major 0x21 (R150)
  | mand (d : MReg) (a : MReg) (b : MReg)  -- MAND: R150
  | mor (d : MReg) (a : MReg) (b : MReg)  -- MOR: R150
  | mxor (d : MReg) (a : MReg) (b : MReg)  -- MXOR: R150
  | mandn (d : MReg) (a : MReg) (b : MReg)  -- MANDN: R150
  | morn (d : MReg) (a : MReg) (b : MReg)  -- MORN: R150
  | mnot (d : MReg) (a : MReg)  -- MNOT: R150
  | mset (d : MReg)  -- MSET: R150
  | mclr (d : MReg)  -- MCLR: R150
  | vffs (d : Reg) (a : MReg) (k : VMask)  -- VFFS: R150
  | vpopc (d : Reg) (a : MReg) (k : VMask)  -- VPOPC: R150
  | vmprefix (t : IntTy) (d : Reg) (a : MReg) (k : VMask)  -- VMPREFIX: R150
  -- Permutes, major 0x22 (R161, R162)
  | vshup (t : IntTy) (d : Reg) (a : Reg) (b : Reg) (k : VMask)  -- VSHUP: R161
  | vshdn (t : IntTy) (d : Reg) (a : Reg) (b : Reg) (k : VMask)  -- VSHDN: R161
  | vperm (t : IntTy) (d : Reg) (a : Reg) (b : Reg) (k : VMask)  -- VPERM: R161
  | vpackm (t : IntTy) (d : Reg) (a : Reg) (mk : MReg)  -- VPACKM: R161
  | vreshape (t : IntTy) (d : Reg) (a : Reg) (b : Reg)  -- VRESHAPE: R162
  | vbcast (t : IntTy) (d : Reg) (a : Reg) (b : Reg) (k : VMask)  -- VBCAST: R161
  -- Vector integer arithmetic and compares, majors 0x23 and 0x24 (R151 to R153)
  | vadd (t : IntTy) (d : Reg) (a : Reg) (b : Reg) (k : VMask)  -- VADD: R151
  | vsub (t : IntTy) (d : Reg) (a : Reg) (b : Reg) (k : VMask)  -- VSUB: R151
  | vmul (t : IntTy) (d : Reg) (a : Reg) (b : Reg) (k : VMask)  -- VMUL: R151
  | vmulh (t : IntTy) (d : Reg) (a : Reg) (b : Reg) (k : VMask)  -- VMULH: R151
  | vdiv (t : IntTy) (d : Reg) (a : Reg) (b : Reg) (k : VMask)  -- VDIV: R151
  | vrem (t : IntTy) (d : Reg) (a : Reg) (b : Reg) (k : VMask)  -- VREM: R151
  | vmin (t : IntTy) (d : Reg) (a : Reg) (b : Reg) (k : VMask)  -- VMIN: R151
  | vmax (t : IntTy) (d : Reg) (a : Reg) (b : Reg) (k : VMask)  -- VMAX: R151
  | vand (t : IntTy) (d : Reg) (a : Reg) (b : Reg) (k : VMask)  -- VAND: R151
  | vor (t : IntTy) (d : Reg) (a : Reg) (b : Reg) (k : VMask)  -- VOR: R151
  | vxor (t : IntTy) (d : Reg) (a : Reg) (b : Reg) (k : VMask)  -- VXOR: R151
  | vsll (t : IntTy) (d : Reg) (a : Reg) (b : Reg) (k : VMask)  -- VSLL: R151
  | vsr (t : IntTy) (d : Reg) (a : Reg) (b : Reg) (k : VMask)  -- VSR: R151
  | vadds (t : IntTy) (d : Reg) (a : Reg) (b : Reg) (k : VMask)  -- VADDS: R151
  | vsubs (t : IntTy) (d : Reg) (a : Reg) (b : Reg) (k : VMask)  -- VSUBS: R151
  | vmac (t : IntTy) (d : Reg) (a : Reg) (b : Reg) (k : VMask)  -- VMAC: R151
  | vseq (t : IntTy) (d : MReg) (a : Reg) (b : Reg) (k : VMask)  -- VSEQ: R153
  | vsne (t : IntTy) (d : MReg) (a : Reg) (b : Reg) (k : VMask)  -- VSNE: R153
  | vslt (t : IntTy) (d : MReg) (a : Reg) (b : Reg) (k : VMask)  -- VSLT: R153
  | vsle (t : IntTy) (d : MReg) (a : Reg) (b : Reg) (k : VMask)  -- VSLE: R153
  | vsgt (t : IntTy) (d : MReg) (a : Reg) (b : Reg) (k : VMask)  -- VSGT: R153
  | vsge (t : IntTy) (d : MReg) (a : Reg) (b : Reg) (k : VMask)  -- VSGE: R153
  -- Vector floating point, majors 0x25 and 0x26 (R154, R155)
  | vfadd (t : FTy) (d : Reg) (a : Reg) (b : Reg) (k : VMask)  -- VFADD: R154
  | vfsub (t : FTy) (d : Reg) (a : Reg) (b : Reg) (k : VMask)  -- VFSUB: R154
  | vfmul (t : FTy) (d : Reg) (a : Reg) (b : Reg) (k : VMask)  -- VFMUL: R154
  | vfdiv (t : FTy) (d : Reg) (a : Reg) (b : Reg) (k : VMask)  -- VFDIV: R154
  | vfsqrt (t : FTy) (d : Reg) (a : Reg) (k : VMask)  -- VFSQRT: R154
  | vfmin (t : FTy) (d : Reg) (a : Reg) (b : Reg) (k : VMask)  -- VFMIN: R154
  | vfmax (t : FTy) (d : Reg) (a : Reg) (b : Reg) (k : VMask)  -- VFMAX: R154
  | vfmac (t : FTy) (d : Reg) (a : Reg) (b : Reg) (k : VMask)  -- VFMAC: R154
  | vfmsc (t : FTy) (d : Reg) (a : Reg) (b : Reg) (k : VMask)  -- VFMSC: R154
  | vfcopys (t : FTy) (d : Reg) (a : Reg) (b : Reg) (k : VMask)  -- VFCOPYS: R154
  | vfcopysn (t : FTy) (d : Reg) (a : Reg) (b : Reg) (k : VMask)  -- VFCOPYSN: R154
  | vfcmpeq (t : FTy) (d : MReg) (a : Reg) (b : Reg) (k : VMask)  -- VFCMPEQ: R155
  | vfcmpne (t : FTy) (d : MReg) (a : Reg) (b : Reg) (k : VMask)  -- VFCMPNE: R155
  | vfcmplt (t : FTy) (d : MReg) (a : Reg) (b : Reg) (k : VMask)  -- VFCMPLT: R155
  | vfcmple (t : FTy) (d : MReg) (a : Reg) (b : Reg) (k : VMask)  -- VFCMPLE: R155
  | vfkind (t : FTy) (d : Reg) (a : Reg) (k : VMask)  -- VFKIND: R155
  -- Conversions, major 0x27 (R158)
  | vcvt (f : CvtOp) (d : Reg) (a : Reg) (k : VMask)  -- VCVT: R158
  -- Reductions and scans, major 0x28 (R159, R160)
  | vredAdd (t : IntTy) (d : Reg) (a : Reg) (b : Reg) (k : VMask)  -- VRED_ADD: R159
  | vredMin (t : IntTy) (d : Reg) (a : Reg) (b : Reg) (k : VMask)  -- VRED_MIN: R159
  | vredMax (t : IntTy) (d : Reg) (a : Reg) (b : Reg) (k : VMask)  -- VRED_MAX: R159
  | vredAnd (t : IntTy) (d : Reg) (a : Reg) (b : Reg) (k : VMask)  -- VRED_AND: R159
  | vredOr (t : IntTy) (d : Reg) (a : Reg) (b : Reg) (k : VMask)  -- VRED_OR: R159
  | vredXor (t : IntTy) (d : Reg) (a : Reg) (b : Reg) (k : VMask)  -- VRED_XOR: R159
  | vfredTree (t : FTy) (d : Reg) (a : Reg) (b : Reg) (k : VMask)  -- VFRED_TREE: R159
  | vfredSeq (t : FTy) (d : Reg) (a : Reg) (b : Reg) (k : VMask)  -- VFRED_SEQ: R159
  | vfredMin (t : FTy) (d : Reg) (a : Reg) (b : Reg) (k : VMask)  -- VFRED_MIN: R159
  | vfredMax (t : FTy) (d : Reg) (a : Reg) (b : Reg) (k : VMask)  -- VFRED_MAX: R159
  | vscan (t : IntTy) (d : Reg) (a : Reg) (b : Reg) (k : VMask)  -- VSCAN: R159
  | vfscan (t : FTy) (d : Reg) (a : Reg) (b : Reg) (k : VMask)  -- VFSCAN: R159
  -- Widening arithmetic and dot forms, major 0x29 (R157)
  | vwadd (t : WIntTy) (d : Reg) (a : Reg) (b : Reg) (k : VMask)  -- VWADD: R157
  | vwsub (t : WIntTy) (d : Reg) (a : Reg) (b : Reg) (k : VMask)  -- VWSUB: R157
  | vwmul (t : WIntTy) (d : Reg) (a : Reg) (b : Reg) (k : VMask)  -- VWMUL: R157
  | vwmac (t : WIntTy) (d : Reg) (a : Reg) (b : Reg) (k : VMask)  -- VWMAC: R157
  | vfwadd (t : FWTy) (d : Reg) (a : Reg) (b : Reg) (k : VMask)  -- VFWADD: R157
  | vfwsub (t : FWTy) (d : Reg) (a : Reg) (b : Reg) (k : VMask)  -- VFWSUB: R157
  | vfwmul (t : FWTy) (d : Reg) (a : Reg) (b : Reg) (k : VMask)  -- VFWMUL: R157
  | vfwmac (t : FWTy) (d : Reg) (a : Reg) (b : Reg) (k : VMask)  -- VFWMAC: R157
  | vdot (t : ByteTy) (d : Reg) (a : Reg) (b : Reg) (k : VMask)  -- VDOT: R157
  | vfdot (t : DotTy) (d : Reg) (a : Reg) (b : Reg) (k : VMask)  -- VFDOT: R157
  -- Vector-scalar forms, major 0x2A (R156)
  | vaddVs (t : IntTy) (d : Reg) (a : Reg) (b : Reg) (k : VMask)  -- VADD_VS: R156
  | vsubVs (t : IntTy) (d : Reg) (a : Reg) (b : Reg) (k : VMask)  -- VSUB_VS: R156
  | vrsubVs (t : IntTy) (d : Reg) (a : Reg) (b : Reg) (k : VMask)  -- VRSUB_VS: R156
  | vmulVs (t : IntTy) (d : Reg) (a : Reg) (b : Reg) (k : VMask)  -- VMUL_VS: R156
  | vminVs (t : IntTy) (d : Reg) (a : Reg) (b : Reg) (k : VMask)  -- VMIN_VS: R156
  | vmaxVs (t : IntTy) (d : Reg) (a : Reg) (b : Reg) (k : VMask)  -- VMAX_VS: R156
  | vandVs (t : IntTy) (d : Reg) (a : Reg) (b : Reg) (k : VMask)  -- VAND_VS: R156
  | vsllVs (t : IntTy) (d : Reg) (a : Reg) (b : Reg) (k : VMask)  -- VSLL_VS: R156
  | vfaddVs (t : FTy) (d : Reg) (a : Reg) (b : Reg) (k : VMask)  -- VFADD_VS: R156
  | vfsubVs (t : FTy) (d : Reg) (a : Reg) (b : Reg) (k : VMask)  -- VFSUB_VS: R156
  | vfrsubVs (t : FTy) (d : Reg) (a : Reg) (b : Reg) (k : VMask)  -- VFRSUB_VS: R156
  | vfmulVs (t : FTy) (d : Reg) (a : Reg) (b : Reg) (k : VMask)  -- VFMUL_VS: R156
  | vfdivVs (t : FTy) (d : Reg) (a : Reg) (b : Reg) (k : VMask)  -- VFDIV_VS: R156
  | vfrdivVs (t : FTy) (d : Reg) (a : Reg) (b : Reg) (k : VMask)  -- VFRDIV_VS: R156
  | vfmacVs (t : FTy) (d : Reg) (a : Reg) (b : Reg) (k : VMask)  -- VFMAC_VS: R156
  | vfmaxVs (t : FTy) (d : Reg) (a : Reg) (b : Reg) (k : VMask)  -- VFMAX_VS: R156
  -- Vector memory, majors 0x2C to 0x2F (R164, R165)
  | vld (w : Width) (d : Reg) (a : Reg) (k : VMask)  -- VLD: R174
  | vlds (w : Width4) (d : Reg) (a : Reg) (x : Reg) (k : VMask)  -- VLDS: R174
  | vldFf (w : Width) (d : Reg) (a : Reg) (x : Reg) (k : VMask)  -- VLD_FF: R175
  | vlw (t : VlwTy) (d : Reg) (a : Reg) (k : VMask)  -- VLW: R182
  | vst (w : Width) (d : Reg) (a : Reg) (k : VMask)  -- VST: R174
  | vsts (w : Width4) (d : Reg) (a : Reg) (x : Reg) (k : VMask)  -- VSTS: R174
  | vlseg (w : Width4) (n : BitVec 3) (d : Reg) (a : Reg) (k : VMask)  -- VLSEG: R176
  | vsseg (w : Width4) (n : BitVec 3) (d : Reg) (a : Reg) (k : VMask)  -- VSSEG: R176
  | vgather (w : Width4) (d : Reg) (a : Reg) (x : Reg) (k : VMask)  -- VGATHER: R177
  | vscatter (w : Width4) (d : Reg) (a : Reg) (x : Reg) (k : VMask)  -- VSCATTER: R177
  | vgatherNb (w : Width4) (d : Reg) (a : Reg) (x : Reg) (k : VMask)  -- VGATHER_NB: R177
  | vlsl (w : Width4) (d : Reg) (a : Reg) (x : Reg) (k : VMask)  -- VLSL: R177
  | vssl (w : Width4) (d : Reg) (a : Reg) (x : Reg) (k : VMask)  -- VSSL: R177
  | vsend (w : SendW) (d : Reg) (a : Reg) (x : Reg) (k : VMask)  -- VSEND: R180
  -- Matrix, majors 0x30 to 0x33 (R187 to R200)
  | mopa (t : MxTy) (n : AccN) (a : Reg) (b : Reg) (mr : MReg) (mc : MReg) (grp : BitVec 3)  -- MOPA: R193
  | mopaMixed (t : MixTy) (n : AccN) (a : Reg) (b : Reg) (mr : MReg) (mc : MReg) (grp : BitVec 3)  -- MOPA_MIXED: R193
  | accon (n : AccN) (d : Reg)  -- ACCON: R188
  | accoff (n : AccN)  -- ACCOFF: R189
  | accz (n : AccN)  -- ACCZ: R190
  | acczM (n : AccN) (mr : MReg) (mc : MReg)  -- ACCZ_M: R190
  | accmovRv (n : AccN) (d : Reg) (b : Reg) (mc : MReg) (grp : BitVec 3)  -- ACCMOV_RV: R195
  | accmovCv (n : AccN) (d : Reg) (b : Reg) (mc : MReg) (grp : BitVec 3)  -- ACCMOV_CV: R195
  | accmovVr (n : AccN) (a : Reg) (b : Reg) (mc : MReg) (grp : BitVec 3)  -- ACCMOV_VR: R195
  | accmovVc (n : AccN) (a : Reg) (b : Reg) (mc : MReg) (grp : BitVec 3)  -- ACCMOV_VC: R195
  | mldF32 (n : AccN) (a : Reg) (b : Reg) (mr : MReg) (mc : MReg)  -- MLD_F32: R197
  | mldF64 (n : AccN) (a : Reg) (b : Reg) (mr : MReg) (mc : MReg)  -- MLD_F64: R197
  | mldBf16 (n : AccN) (a : Reg) (b : Reg) (mr : MReg) (mc : MReg)  -- MLD_BF16: R197
  | mldFfF32 (n : AccN) (a : Reg) (b : Reg) (mr : MReg) (mc : MReg)  -- MLD_FF_F32: R197
  | mldFfF64 (n : AccN) (a : Reg) (b : Reg) (mr : MReg) (mc : MReg)  -- MLD_FF_F64: R197
  | mstF32 (n : AccN) (a : Reg) (b : Reg) (mr : MReg) (mc : MReg)  -- MST_F32: R197
  | mstF64 (n : AccN) (a : Reg) (b : Reg) (mr : MReg) (mc : MReg)  -- MST_F64: R197
  | mstBf16 (n : AccN) (a : Reg) (b : Reg) (mr : MReg) (mc : MReg)  -- MST_BF16: R197
  -- Fences and waits, major 0x34 (R208 to R211)
  | fence (sm : BitVec 4)  -- FENCE: R209
  | fenceAcq (sm : BitVec 4)  -- FENCE_ACQ: R209
  | fenceRel (sm : BitVec 4)  -- FENCE_REL: R209
  | fenceI  -- FENCE_I: R209
  | waita (c : WCond) (a : Reg) (b : Reg) (x : Reg)  -- WAITA: R210
  | waitaAq (c : WCond) (a : Reg) (b : Reg) (x : Reg)  -- WAITA_AQ: R210
  | engwait  -- ENGWAIT: R211
  -- Engine commands, major 0x35 (R212 to R219)
  | cpy (a : Reg) (b : Reg) (x : Reg)  -- CPY: R212
  | kvgather (a : Reg) (b : Reg) (x : Reg)  -- KVGATHER: R212
  | kvappend (a : Reg) (b : Reg) (x : Reg)  -- KVAPPEND: R212
  | fconvD2f (a : Reg) (b : Reg) (x : Reg)  -- FCONV_D2F: R212
  | fconvF2d (a : Reg) (b : Reg) (x : Reg)  -- FCONV_F2D: R212
  | sfbag (a : Reg) (b : Reg) (x : Reg)  -- SFBAG: R212
  -- Streams and fabric loads, major 0x36 (R220 to R226)
  | sbind (a : Reg) (b : Reg)  -- SBIND: R222
  | sbindGen (a : Reg) (b : Reg)  -- SBIND_GEN: R222
  | srel (a : Reg)  -- SREL: R224
  | tload (a : Reg) (b : Reg)  -- TLOAD: R225
  | tswap  -- TSWAP: R226
  | tbar (a : Reg)  -- TBAR: R224
  -- Tasks and watch entries, major 0x37 (R227 to R230, R38, R40)
  | tspawn (a : Reg)  -- TSPAWN: R228
  | gang (a : Reg) (b : Reg)  -- GANG: R228
  | gangLeave  -- GANG_LEAVE: R229
  | watchBind (a : Reg) (b : Reg)  -- WATCH_BIND: R230
  | watchArm (a : Reg)  -- WATCH_ARM: R230
  | watchDisarm (a : Reg)  -- WATCH_DISARM: R230
  | watchUnbind (a : Reg)  -- WATCH_UNBIND: R230
  | endTask (a : Reg)  -- END: R38, R40
  -- System, majors 0x38 to 0x3A (R232, R241 to R243)
  | csrr (d : Reg) (csr : BitVec 12)  -- CSRR: R232
  | csrw (d : Reg) (a : Reg) (csr : BitVec 12)  -- CSRW: R232
  | csrs (d : Reg) (a : Reg) (csr : BitVec 12)  -- CSRS: R232
  | csrc (d : Reg) (a : Reg) (csr : BitVec 12)  -- CSRC: R232
  | eret  -- ERET: R241
  | brk (code : BitVec 12)  -- BRK: R242
  | syscall (code : BitVec 12)  -- SYSCALL: R242
  | tabort (a : Reg)  -- TABORT: R242
  | tlbiAll  -- TLBI_ALL: R243
  | tlbiAs (a : Reg)  -- TLBI_AS: R243
  | tlbiVa (d : Reg) (a : Reg)  -- TLBI_VA: R243
  | tlbiVaall (a : Reg)  -- TLBI_VAALL: R243
  | clean (a : Reg)  -- CLEAN: R243
  | flush (a : Reg)  -- FLUSH: R243
  | flushL1  -- FLUSH_L1: R243
  | flushL2  -- FLUSH_L2: R243
  -- EVENTS of the Trellis and its streams (no encoding; spec/95)
  | trellisCycle (tile : Nat) (stall : List Nat)  -- TRELLIS_CYCLE: R256; stall: the shared links that other traffic takes in this cycle (R248)
  | cellAccessDone (tile : Nat) (cell : Nat)  -- CELL_ACCESS_DONE: R261
  | streamPush (tile : Nat) (port : Nat)  -- STREAM_PUSH: R62
  | writePortStore (tile : Nat) (port : Nat)  -- WRITE_PORT_STORE: R249
  | streamFault (tile : Nat) (port : Nat)  -- STREAM_FAULT: R251
  | streamRelease (tile : Nat) (port : Nat)  -- STREAM_RELEASE: R224
  | reservationSplit (tile : Nat) (port : Nat)  -- RESERVATION_SPLIT: R394
  | deadlockDetect (tile : Nat)  -- DEADLOCK_DETECT: R273
  | fabricFreeze (tile : Nat)  -- FABRIC_FREEZE: R271
  -- EVENTS of engines and accesses
  | engineAccept (strand : Nat)  -- ENGINE_ACCEPT: R212
  | engineComplete (cmd : Nat)  -- ENGINE_COMPLETE: R214
  | engineFault (cmd : Nat) (err : Option EngErr)  -- ENGINE_FAULT: R214; err: an error from outside the command itself, and the units done before it
  | trainAck (strand : Nat)  -- TRAIN_ACK: R181
  | deferredError (strand : Nat) (poison : Bool) (addr : Word)  -- DEFERRED_ERROR: R172; an error for an outstanding vector access
  | remoteTimeout (strand : Nat) (performed : Bool)  -- REMOTE_TIMEOUT: R389; the next request of the strand that leaves its die times out
  -- EVENTS of strands
  | asyncTrap (strand : Nat)  -- ASYNC_TRAP: R239
  | setvlRetry (strand : Nat)  -- SETVL_RETRY: R33
  | waitaWake (strand : Nat)  -- WAITA_WAKE: R63
  | waitaTimeout (strand : Nat)  -- WAITA_TIMEOUT: R210
  | endProceed (strand : Nat)  -- END_PROCEED: R40
  | tswapProceed (strand : Nat)  -- TSWAP_PROCEED: R226
  | lrReservationExpire (strand : Nat)  -- LR_RESERVATION_EXPIRE: R207
  -- EVENTS of the dispatchers and of pre-emption
  | watchTrigger (idx : Nat)  -- WATCH_TRIGGER: R30; the idx-th trigger on its way arrives
  | dispatchPlace (die : Nat)  -- DISPATCH_PLACE: R357
  | agingPromote (die : Nat) (slot : Nat)  -- AGING_PROMOTE: R356
  | gangReserve (die : Nat) (slot : Nat)  -- GANG_RESERVE: R357
  | queueSlotFree (die : Nat)  -- QUEUE_SLOT_FREE: R355
  | preq (die : Nat) (w : Nat) (bits : Word)  -- PREQ: R375
  | preemptForce (strand : Nat)  -- PREEMPT_FORCE: R376
  | suspendStore (addr : Word)  -- SUSPEND: R378; the store of the issuing strand
  | suspendSave (strand : Nat)  -- SUSPEND_SAVE: R378
  | fabricSave (tile : Nat)  -- FABRIC_SAVE: R381
  | resumePlace (die : Nat)  -- RESUME_PLACE: R383
  | bootlr (die : Nat) (addr : Word)  -- BOOTLR: R359
  | hvec (die : Nat) (addr : Word)  -- HVEC: R359
  -- EVENTS of boot, Cogor and the fleet
  | coldReset  -- COLD_RESET: R400
  | moduleReset (bits : BitVec 2)  -- RESET: R404
  | bootStageDone (ok : Bool)  -- BOOT_STAGE_DONE: R400; ok: the training, the parity or the scrub of the stage succeeded
  | releaseDies (bits : Word)  -- RELEASE: R401
  | dumpclr (bits : Word)  -- DUMPCLR: R409
  | svncommit (bits : Word)  -- SVNCOMMIT: R403
  | retireTile (bits : Word)  -- RETIRE: R417
  | retireDone  -- RETIRE_DONE: R417
  | partcfg (bits : Word)  -- PARTCFG: R418
  | securityAlarm (sensor : BitVec 2)  -- SECURITY_ALARM: R408
  | fatalError (cause : Nat) (unit : Nat)  -- FATAL_ERROR: R410
  | watchdogExpire (die : Nat)  -- WATCHDOG_EXPIRE: R409
  | governorWindow (die : Nat) (pwr : BitVec 16) (temp : BitVec 8)  -- GOVERNOR_WINDOW: R414; pwr, temp: the sensor readings of the window
  | patrolScrub (line : Nat) (corrected : Bool)  -- PATROL_SCRUB: R416
  | softError (e : SoftErr)  -- SOFT_ERROR: R416
  | pageWalk (strand : Nat) (va : Word) (kind : AccKind)  -- PAGE_WALK: R364 to R370
  | getVersion  -- GET_VERSION: R407
  | getCapabilities  -- GET_CAPABILITIES: R407
  | negotiateAlgorithms  -- NEGOTIATE_ALGORITHMS: R407
  | getDigests  -- GET_DIGESTS: R407
  | getCertificate  -- GET_CERTIFICATE: R407
  | challenge (nonce : Nat)  -- CHALLENGE: R407
  | getMeasurements (ask : MeasureAsk) (nonce : Nat)  -- GET_MEASUREMENTS: R407
  | transferImage (img : List Byte)  -- TRANSFER: R419
  | verifyImage  -- VERIFY: R419
  | activateFirmware (copies : Nat)  -- ACTIVATE_FIRMWARE: R419; copies: how many of the two copies complete before a reset
  | getSensorReading (die : Nat) (sensor : Nat)  -- GET_SENSOR_READING: R419
  -- EVENTS at the CXL ports and in the control space
  | cxlMemRead (r : Requester) (pa : Nat) (n : Nat) (keep : Half)  -- CXL_MEM_READ: R292; keep: the copy that the requester then holds (R391)
  | cxlMemWrite (r : Requester) (pa : Nat) (bytes : List Byte) (poison : Bool)  -- CXL_MEM_WRITE: R292
  | cxlSnoop (pa : Nat) (inv : Bool) (data : Payload)  -- CXL_SNOOP: R392; data: what the outside home then writes there
  | bisnpComplete (pa : Nat) (inv : Bool) (data : Payload)  -- BISNP_COMPLETE: R391; data: what the holder had modified in its half
  | cxlConfigRead (off : Nat)  -- CXL_CONFIG_READ: R400
  | domid (v : BitVec 6)  -- DOMID: R398
  | registerWrite (x : BarAccess) (v : Word)  -- REGISTER_WRITE: R7
  -- EVENTS at instruction fetch and in the vector queue
  | illegalInstruction (w : IWord)  -- ILLEGAL_INSTRUCTION: R109
  | fetchPageFault  -- FETCH_PAGE_FAULT: R133
  | vectorQueueAdvance (strand : Nat)  -- VECTOR_QUEUE_ADVANCE: R141
  | accessPerformed (strand : Nat)  -- ACCESS_PERFORMED: R209
deriving DecidableEq, Repr

end Sys2Proof
end

