-- ==== Sys2Proof/Machine/State.lean ====
section
/-!
DEFINITION. The state of one Twixus X9 module as plain data: strands, tiles, compute dies, memory-side dies, Cogor,
memory, and what is under way between them. INVENTORY.md lists each field with its rule and its reset value.
-/

namespace Sys2Proof.Machine

/-- Why a step stops the machine for good. -/
inductive Fault where
  /-- Raised by step when the plan is empty, the module is halted (STAGE 7) and no dump is being written: no die issues until a cold
  reset, which only an event of the plan can bring (R400, R408, R410). Safe: the machine does nothing more in the hardware either. -/
  | moduleHalted
deriving DecidableEq, Repr

/-- Why an instruction is refused. -/
inductive Refusal where
  /-- Raised by exec for an instruction whose meaning is not written. Safe: nothing is claimed of it. -/
  | notModelled (mnemonic : String)
deriving DecidableEq, Repr

/-- A feature of a CXL device: those that the module supports, those that the table names as not supported, and all that it does not
list (R345). -/
inductive CxlFeature where
  | io | cache | mem | flit256 | hdmDb | portRouting | attestation
  | flit68 | latencyOptimised | type3 | multiLogical | dynamicCapacity | globalFabric | ide | hdmH | hdmD
  /-- a feature that the table does not list -/
  | unlisted (n : Nat)
deriving DecidableEq, Repr

/-- A request from outside that no row of the opcode table names: a read of n bytes of a register through the BAR0 of function fn
(R346, R347), a read of the capability structure of a feature, and a request that needs a feature (R345). -/
inductive Request where
  | barRead (fn : Nat) (reg : BarReg) (n : Nat)
  | capability (f : CxlFeature)
  | feature (f : CxlFeature)
deriving DecidableEq, Repr

/-- One entry of the free schedule. Who acts next, and how many cycles pass before, is open (R20, R276, R329). An engine makes
its command's accesses one by one (R286): a read of its present unit or of one that many units on, with the reads that it passes
over; the reservation of the lines that its unit is to write; a whole unit, the present one or one that many units on. -/
inductive Move where
  | issue (strand : Nat) (cycles : Nat)
  | event (i : Instr) (cycles : Nat)
  | engRead (cmd ahead skip : Nat) (cycles : Nat)
  | engHold (cmd : Nat) (cycles : Nat)
  | engUnit (cmd ahead : Nat) (cycles : Nat)
  | outside (q : Request) (cycles : Nat)
deriving DecidableEq, Repr

/-! ## Strands -/

/-- An entry of a tile's translation buffers (R369): ASID, global mark, page base, page bytes, physical base, the
entry as the buffer holds it, and the physical address at which the walk read it (R368). -/
structure TlbEnt where
  asid : BitVec 16
  glob : Bool
  va : Nat
  size : Nat
  pa : Nat
  pte : Word
  at_ : Nat
deriving DecidableEq, Repr

/-- The kind of an engine command (R212). -/
inductive EngKind where
  | cpy | kvgather | kvappend | d2f | f2d | sfbag
deriving DecidableEq, Repr

/-- One scope mask register SMk: words 0 to 9 (TILES) and the fields of word 10 (R235). -/
structure Scope where
  tiles : BitVec 640
  peers : Bool
  host : Bool
  rel : BitVec 3
deriving DecidableEq, Repr

/-- A read that an engine has made ahead: the unit it is of (0 for those that come once, before any unit; otherwise DONE + 1), its
place among the unit's reads, its address and bytes, and the value. -/
structure EngRead where
  unit : Nat
  pos : Nat
  va : Word
  n : Nat
  val : Nat
deriving DecidableEq, Repr

/-- The accesses of an engine command (R286): the reads made ahead. The other fields serve within one step: the unit, and how many
of its reads it has gone through; how many new reads it passes over before it makes one, if it makes only one, and whether that one
is made; whether the reads that come once are made; the lines written; and whether a request has left the module or the memory-side
die. -/
structure EngRun where
  seen : List EngRead
  unit : Nat
  pos : Nat
  budget : Option Nat
  made : Bool
  begun : Bool
  wrote : List Nat
  far : Bool
deriving DecidableEq, Repr

/-- A command's accesses before any is made. -/
def EngRun.start : EngRun :=
  { seen := [], unit := 0, pos := 0, budget := none, made := false, begun := false, wrote := [], far := false }

/-- An engine command from its issue on (R212, R214): its number, operands, the descriptor as read, what the engine captures at
acceptance and when that was, how far it has come (DONE, and PEND or CARRY; whether its work has begun; whether an output record is
closed; whether the descriptor says that it is done), the units beyond DONE that are done, each with its length, its accesses under
way, and the lines over which it holds its write reservation. -/
structure EngCmd where
  id : Nat
  kind : EngKind
  strand : Nat
  task : Nat
  desc : Word
  cpl : Word
  value : Word
  words : Vector Word 8
  scope : Scope
  root : BitVec 40
  asid : BitVec 16
  sup : Bool
  since : Nat
  done : Nat
  aux : Nat
  begun : Bool
  closed : Bool
  told : Bool
  early : List (Nat × Nat)
  run : EngRun
  lines : List Nat
deriving DecidableEq, Repr

/-- The state of a strand (R32). A strand at supervisor level (PL = 1) is the one the manual calls Trapped. The waits
that R32 leaves Running are re-runs of the waiting instruction, except those that an event ends. -/
inductive Run where
  | free
  | running
  /-- in WAITA: line watched, operands, issue time, and whether a write has woken it (R63, R210) -/
  | sleeping (c : WCond) (aq : Bool) (addr val timeout : Word) (since : Nat) (line : Nat) (woken : Bool)
  /-- in SETVL, waiting for a lane group (R33) -/
  | stalled (w : Width) (avl : Word) (d : Reg)
  /-- in END: at step 0 waiting for the conditions of R40, at step 1 held at the completion write, at step 2 + c at the
  decrement of counter c -/
  | ending (exit : Word) (from_ : Nat)
  /-- waiting for an engine to accept a command (R212) -/
  | accepting (c : EngCmd)
  /-- in TSWAP, waiting for the active load to drain (R226) -/
  | swapping
  /-- after a valid SUSPEND store, until the context record is written (R378): the record, the time from which the
  2 ms of R381 count, and whether the active load's regions are written -/
  | suspending (record since : Nat) (fabric : Bool)
  /-- halted by a double trap or an uncorrectable error, its completion write held (R240, R416) -/
  | aborting (exit : BitVec 16)
deriving DecidableEq, Repr

/-- What a request over CXL asks for: n bytes with the copy that the requester then holds; to write n bytes; or a snoop (R391, R392). -/
inductive CxlKind where
  | read (n : Nat) (keep : Half)
  | write (n : Nat)
  | snoop (inv : Bool)
deriving DecidableEq, Repr

/-- Who makes an access (R275): a strand for itself, the fetch of its instructions, a command, one read of a command by unit and place,
a stream's binding, a cell of a load, a dispatcher, a party outside the module with one request. -/
inductive Asker where
  | strand (k : Nat)
  | fetch (k : Nat)
  | command (id : Nat)
  | engRead (id unit pos : Nat)
  | stream (bind : Nat)
  | cell (load n : Nat)
  | dispatcher (die : Nat)
  | outside (r : Requester) (pa : Nat) (kind : CxlKind)
deriving DecidableEq, Repr

/-- A load reservation (R206, R395): address and size as LR named them, the physical address, the cycle of the LR. -/
structure LoadResv where
  addr : Word
  dbl : Bool
  pa : Nat
  since : Nat
deriving DecidableEq, Repr

/-- Membership in a gang (R26, R229). -/
structure GangRef where
  id : Nat
  member : Nat
  count : Nat
  cask : Nat
deriving DecidableEq, Repr

/-- The task a strand runs: the model's own number for it, its task record as placed (R348), the level at which it was
placed, its gang, and the completion words the retained record names. -/
structure Task where
  id : Nat
  words : Vector Word 8
  level : BitVec 2
  gang : Option GangRef
deriving DecidableEq, Repr

/-- The asynchronous causes pending for a strand, by class, each in the order in which they arose (R239). -/
structure Pending where
  /-- deferred errors: cause and element address (R172) -/
  deferred : List (BitVec 8 × Word)
  /-- deferred errors of a vector or accumulator access that is not complete: they become pending at its end, the next boundary
  (R172) -/
  late : List (BitVec 8 × Word)
  /-- engine traps: cause, address field, descriptor (R214) -/
  engine : List (BitVec 8 × Word × Word)
  /-- Trellis causes with their address field (R271 to R273) -/
  fabric : List (BitVec 8 × Word)
  /-- Gang Aborts, each with the faulted member's number (R387) -/
  gangAbort : List Nat
  /-- Single Step (R244) -/
  step : Bool
  /-- a pre-emption request, the time it was raised, and whether it is forced (R375, R376) -/
  preempt : Option (Nat × Bool)
  /-- the request was raised while the handler of an earlier one ran (R376) -/
  further : Bool
deriving DecidableEq, Repr

/-- What is outstanding: a vector store, the stores of an accumulator, a train to a destination (R181, R189). -/
inductive OutstKind where
  | vector
  | acc (n : Nat)
  | train (dest : Nat)
deriving DecidableEq, Repr

/-- An outstanding access of a strand (R209): a vector store, an accumulator store or a train (R181), the time it was made,
and the addresses of its elements, each with whether its request leaves the module or the memory-side die (R389). -/
structure Outst where
  kind : OutstKind
  since : Nat
  addrs : List (Word × Bool)
deriving DecidableEq, Repr

/-- How far a vector or accumulator access has come (R173, R199): its slot counters and its row, the mask m7 as it was when the
instruction began (R81, R197), the spans it has written (R388), the v registers that it loads (R143), and whether it waits at a
range reservation (R173). -/
structure Part where
  tlg : Vector (BitVec 16) 8
  row : BitVec 6
  m7 : Mask
  spans : List (Nat × Nat)
  busy : BitVec 32
  shut : Bool
deriving DecidableEq, Repr

/-- One strand: its registers, control registers and what is pending for it (R97, R234, R235). -/
structure Strand where
  run : Run
  pc : Word
  g : Vector Word 32
  v : Vector VReg 32
  m : Vector Mask 8
  vl : Nat
  ew : Width
  rm : BitVec 3
  empty : Bool
  vflags : Flags
  vpi : BitVec 32
  pl : Bool
  ppl : Bool
  ss : Bool
  pss : Bool
  ta : Bool
  fflags : Flags
  eeos : Bool
  rflags : Flags
  rngSeed : Word
  rngCtr : Word
  scopes : Vector Scope 16
  tvec : Word
  tscr : Word
  def_ : Bool
  stepped : Bool
  cause : BitVec 8
  epc : Word
  trec : Word
  tlg : Vector (BitVec 16) 8
  trow : BitVec 6
  teng : Word
  root : BitVec 40
  asid : BitVec 16
  resv : Option LoadResv
  task : Option Task
  pend : Pending
  resume : Bool
  outst : List Outst
  /-- the response to the next request that leaves the die is lost: whether the request is performed, and who has made it, and when
  (R389) -/
  lost : Option (Bool × Option (Asker × Nat))
  /-- the strand stalls in ENGWAIT (R211) -/
  engwait : Bool
  /-- the position queries that the held accesses have sent: binding and line (R394) -/
  asked : List (Nat × Nat)
  /-- the failed walks of the instruction under way: 4 KiB page, and whether the walk met poison; its later misses of that page
  merge with the walk (R370) -/
  walks : List (Nat × Bool)
  /-- the translations held for the elements, or the row, at which an instruction resumes: the element's or the row's number with
  each (R171, R198) -/
  kept : List (Nat × TlbEnt)
  /-- how far a vector or accumulator access that waits has come (R173, R199) -/
  part : Option Part
  /-- the v registers that a load stopped by a trap has left partly written (R143, R163) -/
  partly : BitVec 32
  /-- the cycle in which a WAITA that waits for its first read was issued (R210) -/
  begun : Option Nat
  /-- the pre-emption request that the handler serves: the time at which it was raised, whether it was forced, and whether it
  was taken at a SETVL (R37, R376, R381) -/
  reqAt : Option (Nat × Bool × Bool)
deriving DecidableEq, Repr

/-! ## The Trellis of a tile -/

/-- A token (R246). -/
structure Token where
  vals : Vector (BitVec 32) 8
  tag : BitVec 3
deriving DecidableEq, Repr

/-- The sink state of a cell or a write port (R245, R263). -/
inductive Sink where
  | none | eos | eeos
deriving DecidableEq, Repr

/-- One end of a route: channel k of a cell, 0 to 3 an input or an output as its place decides, or a port (R341). -/
inductive End where
  | cell (n : Nat) (chan : Nat)
  | port (p : Nat)
deriving DecidableEq, Repr

/-- One branch of a route: its destination, the hops it crosses from the source on (R248), and whether the destination may
spill (R272). -/
structure Branch where
  dst : End
  path : List Nat
  spill : Bool
deriving DecidableEq, Repr

/-- Where a token of a route goes next: the slot of one of its hops, or the destination of one of its branches. -/
inductive Next where
  | hop (i : Nat)
  | dest (b : Nat)
deriving DecidableEq, Repr

/-- A shared link as one route crosses it (R248, R337): the link as 64 times the cell it leaves plus the cell it enters, where
the route leads from it, and the one slot of the route there: its token with the places it has still to reach. -/
structure Hop where
  link : Nat
  next : List Next
  slot : Option (Token × List Next)
deriving DecidableEq, Repr

/-- A route (R247): a tree of hops, shared by its branches as far as their paths agree. -/
structure Route where
  src : End
  branches : List Branch
  first : List Next
  hops : List Hop
deriving DecidableEq, Repr

/-- The checked access of one lane (R261): the stored address, the virtual one, the translation entry it went through, and the
entry whose D its store sets when it is performed (R368). -/
structure LaneAcc where
  key : Nat
  va : Word
  ent : Option TlbEnt
  mark : Option TlbEnt
deriving DecidableEq, Repr

/-- A fired memory operation of a cell (R261), or a token that waits behind one in the order of the cell's firings. -/
structure CellOp where
  /-- the operation code; 0 for a token of another operation -/
  op : BitVec 6
  slot : Nat
  /-- the access of each lane; none for a lane that makes none -/
  acc : Vector (Option LaneAcc) 8
  /-- per lane, the operand b, and once performed the value of the token -/
  data : Vector (BitVec 32) 8
  chan : Option Nat
  tag : BitVec 3
  /-- the accesses are performed, and only the token waits -/
  done : Bool
  /-- the values of accesses that are performed, while a trigger of theirs waits for a queue slot (R355) -/
  got : Option (Vector (BitVec 32) 8)
  /-- the firing is that of a slot that the owner's ERET has resumed, whose translations are held for it (R274) -/
  held : Bool
  /-- the tokens that the firing dequeued, by channel; the predicates before it; and those of its predicate updates that no later
  firing has overwritten (R271) -/
  took : List (Nat × Token)
  was : Vector (BitVec 16) 8
  hit : Vector (BitVec 16) 8
deriving DecidableEq, Repr

/-- One cell (R245). d and p are indexed by lane first. -/
structure Cell where
  slots : Vector CellWord 16
  d : Vector (Vector (BitVec 32) 8) 8
  p : Vector (BitVec 16) 8
  inq : Vector (List Token) 4
  outq : Vector (List Token) 4
  mb : Nat
  sink : Sink
  acks : Nat
  flags : Vector Flags 8
  committed : Option Nat
  ops : List CellOp
  /-- the channels whose heads are tokens that an undone firing has given back, a channel once for each token (R271) -/
  given : List Nat
  /-- a check of the committed slot has failed, and the cell waits for the owner's ERET (R270) -/
  held : Bool
  /-- the committed slot is the one of a report that the owner's ERET has resumed (R274) -/
  resumed : Bool
deriving DecidableEq, Repr

/-- What a freeze or a report has left for the owner's ERET (R270, R271, R274). -/
structure Report where
  cause : BitVec 8
  frozen : Bool
  cell : Nat
  slot : Nat
  lanes : BitVec 8
  port : Nat
  unit : Nat
  chan : Nat
  addr : Word
  written : Bool
deriving DecidableEq, Repr

/-- One fabric load: the configuration as TLOAD wrote it and everything that runs under it (R225, R245, R270). -/
structure Load where
  /-- the model's own number of the load -/
  id : Nat
  owner : Nat
  image : Word
  cellMask : BitVec 64
  sinkMask : BitVec 64
  portMask : BitVec 16
  dirMask : BitVec 16
  modeMask : BitVec 16
  attach : Vector Nat 16
  save : Word
  cells : Table Cell
  routes : List Route
  /-- per spilled channel, by place code: head index and live count of its ring (R272, R381) -/
  spill : Table (Nat × Nat)
  /-- SPILLBASE and SPILLSIZE as last taken from the fault record (R270, R274) -/
  spillBase : Word
  spillSize : Nat
  /-- the sink state of each write port (R249, R263) -/
  ends : Vector Sink 16
  /-- the buffer of each port: tokens of a read port for this load, tokens that reached a write port (R249, R266) -/
  bufs : Vector (List Token) 16
  /-- per shared link, the number of the route whose turn comes next, and the cycles in a row for which other traffic has had it
  (R248, R338) -/
  arb : Table (Nat × Nat)
  frozen : Bool
  report : Option Report
  sealed : Bool
  /-- consecutive cycles without a firing or a token's move (R273) -/
  quiet : Nat
deriving DecidableEq, Repr

/-- The state of a port (R333). -/
inductive PortState where
  | unbound | bound | releasing
deriving DecidableEq, Repr

/-- One stream port with its binding (R221, R249, R333). written lists the physical spans of the stream's writes. -/
structure Port where
  st : PortState
  /-- the model's own number of the binding -/
  bind : Nat
  strand : Nat
  root : BitVec 40
  asid : BitVec 16
  sup : Bool
  /-- the load it is attached to (R266) -/
  load : Nat
  gen : Option Nat
  descAddr : Word
  desc : Vector Word 8
  bcast : Bool
  /-- the save area of the load it is attached to (R270) -/
  save : Word
  idx : Nat
  /-- tokens pushed since the load has ended -/
  buf : List Token
  pack : List (BitVec 32)
  /-- a pending fault marker, or fault of a write port, with its cause and address, and whether it is reported (R251) -/
  marker : Option (BitVec 8 × Word)
  reported : Bool
  ended : Bool
  written : List (Nat × Nat)
deriving DecidableEq, Repr

/-- The record of a seal that has still to be written (R274): the load's number, the owner's translation, the save area, and words 0
and 1. -/
structure SealRec where
  load : Nat
  root : BitVec 40
  asid : BitVec 16
  save : Word
  word0 : Word
  word1 : Word
deriving DecidableEq, Repr

/-- One tile (R19, R20). -/
structure Tile where
  latc : Vector (Option (Fin 4)) 8
  laneFlags : Vector Flags 32
  slices : Vector Slice 32
  accOwner : Vector (Option (Fin 4)) 8
  acc : Vector Acc 8
  active : Option Load
  shadow : Option Load
  ports : Vector Port 16
  /-- the seal records that wait for their save area (R274) -/
  records : List SealRec
  /-- the first-level buffer of the scalar core, at most 512 entries, newest first (R369) -/
  l1tlb : List TlbEnt
  /-- the second-level buffer, at most 4,096 entries, newest first (R369) -/
  tlb : List TlbEnt
deriving DecidableEq, Repr

/-! ## Dies -/

/-- A watch table entry (R351, R352): the descriptor as last bound, ARMED, the state word, the translation that the bind
took as (virtual base, physical base, bytes), and the binder's page table. -/
structure WatchEnt where
  desc : Vector Word 8
  armed : Bool
  bound : Bool
  /-- the physical spans of the latched trigger's write -/
  latched : Option (List (Nat × Nat))
  asid : BitVec 16
  fired : BitVec 32
  segs : List (Nat × Nat × Nat)
  root : BitVec 40
deriving DecidableEq, Repr

/-- A queue record (R354). stamp is the time it reached its present level; by_ is the strand that spawned it (R355). -/
structure QRec where
  slot : Nat
  words : Vector Word 8
  level : BitVec 2
  origin : BitVec 2
  members : Nat
  rcask : Option Nat
  asid : BitVec 16
  root : BitVec 40
  g2 : Word
  enq : Nat
  stamp : Nat
  by_ : Nat
deriving DecidableEq, Repr

/-- One suspended strand in the resume queue: the physical address of its context record, its task's number, gang
membership, what is pending for it, and what the record holds of its fabric loads and their bindings in a form that its
layout does not give (R379 to R382; log 29). -/
structure SavedCtx where
  record : Nat
  task : Nat
  gang : Option GangRef
  pend : Pending
  /-- what has become pending for it since it was suspended -/
  since : Pending
  /-- the v registers that a load stopped by a forced pre-emption has left partly written (R163) -/
  partly : BitVec 32
  /-- the bindings of its fabric loads, by port -/
  ports : List (Nat × Port)
  active : Option Load
  shadow : Option Load
deriving DecidableEq, Repr

/-- A resume entry (R382): one task, or the suspended members of one gang. -/
structure ResumeEnt where
  ctxs : List SavedCtx
  level : BitVec 2
  suspt : Nat
  stamp : Nat
deriving DecidableEq, Repr

/-- A trigger on its way to a watch table: the owner and its entry, the write it comes from, the directory slice that
serialised the write, and the time it arrives (R30, R353). -/
structure Trigger where
  die : Nat
  entry : Nat
  /-- physical spans (address, bytes) that the write wrote -/
  spans : List (Nat × Nat)
  /-- who wrote, if the module did (R355) -/
  writer : Option Asker
  slice : Nat
  due : Nat
deriving DecidableEq, Repr

/-- One compute die (R345 to R359, R375, R382). -/
structure Die where
  queue : List QRec
  /-- the queue slots below this number have held a record since module reset -/
  used : Nat
  watch : Table WatchEnt
  dlost : BitVec 32
  hvec : Word
  resumeq : List ResumeEnt
  /-- thousandths of a tile-clock cycle since module reset (R234, R414) -/
  cycles : Nat
deriving DecidableEq, Repr

/-- A range reservation entry (R393). -/
structure RangeEnt where
  bind : Nat
  write : Bool
  policy : BitVec 2
  rscope : BitVec 4
  strand : Nat
  port : Nat
  splits : BitVec 32
  vlo : Nat
  plo : Nat
  nlines : Nat
deriving DecidableEq, Repr

/-- One memory-side die: telemetry counters by number, range reservation table, governor (R393, R412, R413). -/
structure MDie where
  counters : Vector Word 15
  ranges : Table RangeEnt
  /-- the entries below this number have been in use since module reset -/
  used : Nat
  plim : BitVec 16
  tlim : BitVec 8
  pwr : BitVec 16
  temp : BitVec 8
  freq : BitVec 16
  lowWindows : Nat
  /-- the number of 10 µs windows of the reference clock that have ended for the governor (R414) -/
  window : Nat
deriving DecidableEq, Repr

/-- The module part of a line's directory state (R390). -/
inductive ModPart where
  | i | s | o
deriving DecidableEq, Repr

/-- A cache that may hold a line: a tile's L1D or L1I, or the L2 of a compute die (R19, R59, R60, R390). -/
inductive Cache where
  | l1d (tile : Nat)
  | l1i (tile : Nat)
  | l2 (die : Nat)
deriving DecidableEq, Repr

/-- A sharer record: up to four caches exactly, or one bit for each compute die (R390). -/
inductive Sharers where
  | exact (l : List Cache)
  | dies (v : BitVec 4)
deriving DecidableEq, Repr

/-- A line in the directories and caches (R390): its module part and sharer record, the caches that hold a copy, which halves
the owner's copy has modified, and the host part of each half with those outside that hold it. For a line homed outside the module
lo and hi say instead what the bridge holds of each half (R392). -/
structure DirLine where
  mod : ModPart
  sharers : Sharers
  copies : List Cache
  dlo : Bool
  dhi : Bool
  lo : Half
  hi : Half
  loBy : List Requester
  hiBy : List Requester
deriving DecidableEq, Repr

/-! ## Cogor and what leaves the module -/

/-- The SPDM connection (R407). -/
inductive Spdm where
  | idle | versioned | capable | negotiated
deriving DecidableEq, Repr

/-- The algorithms that the responder names (R407). -/
inductive SpdmAlg where
  | ecdsaP384 | sha384
deriving DecidableEq, Repr

/-- The last answer the module gave to a party outside it: among them the dirty halves that a snoop is answered with (R392), an
unsupported-request response (R345), and an SPDM response with the alias ECDSA signature, the alias LMS signature and the
certificate chain (R407). -/
inductive Answer where
  | none
  | data (bytes : List Byte) (poison : Bool)
  | halves (l : List (Nat × List Byte × Bool))
  | done
  | error
  | retry
  | unsupported
  | algorithms (l : List SpdmAlg)
  | spdm (blocks : List (List Byte)) (ecdsa lms chain : List Byte)
  | spdmError
  | value (v : Word)
deriving DecidableEq, Repr

/-- Cogor, the boot flash and the fused fields (R400 to R408, R417 to R419). -/
structure Cogor where
  stage : BitVec 8
  err : BitVec 8
  slotB : Bool
  alarms : BitVec 4
  bringup : BitVec 4
  svnf : Nat
  erased : Bool
  slotA : List Byte
  slotBImg : List Byte
  staging : List Byte
  verified : Bool
  /-- the copies of an activation that a reset has interrupted and that need not be made again (R419) -/
  copied : Nat
  running : List Byte
  partcfg : Word
  partNext : Word
  rstate : BitVec 2
  rtile : BitVec 10
  /-- the tile that drains -/
  draining : Option Nat
  retmap : BitVec 640
  flashRetmap : BitVec 640
  domid : Option (BitVec 6)
  deviceLeaf : Nat
  aliasTree : Nat
  aliasLeaf : Nat
  /-- the alias LMS tree has its certificate (R406) -/
  certified : Bool
  spdm : Spdm
  /-- a fatal error has halted the module -/
  fatal : Bool
  /-- a dump is being written since this time (R410) -/
  dumping : Option Nat
  /-- an activation waits for the dump: how many of its copies complete (R419) -/
  activating : Option Nat
deriving DecidableEq, Repr

/-! ## The module -/

/-- A record that waits for a slot of a full queue (R355): its die, the watch entry it comes from as (die, number), if any, and
the party whose write is not complete before. -/
structure Waiting where
  die : Nat
  rcd : QRec
  entry : Option (Nat × Nat)
  writer : Option Asker
deriving DecidableEq, Repr

/-- A share of cask memory frozen by the fatal end of a gang member: cask, share, and the gang (R387). -/
structure FrozenShare where
  cask : Nat
  share : Nat
  gang : Nat
deriving DecidableEq, Repr

/-- The whole module. cur, plan, issued, tick and nextId are the model's own fields (log 1, 92, 93); queries and
snoops are the position queries and back-invalidates on their way (R391, R394). -/
structure State where
  cur : Nat
  plan : List Move
  /-- the strands that have issued, each with the cycle of its die: of a tile at most two in one cycle (R20) -/
  issued : List (Nat × Nat)
  tick : Nat
  clock : Nat
  nextId : Nat
  strands : Table Strand
  tiles : Table Tile
  dies : Vector Die 4
  mdies : Vector MDie 4
  mem : List Host.Cell
  poison : List Nat
  dir : Table DirLine
  cmds : Table EngCmd
  triggers : List Trigger
  waiting : List Waiting
  /-- position queries on their way: binding, and the memory-side die that asks (R394) -/
  queries : List (Nat × Nat)
  /-- the position queries that accesses other than a strand's own have sent: who, binding, line (R394) -/
  asked : List (Asker × Nat × Nat)
  /-- the translations held for the accesses of resumed cells (R274) -/
  kept : List (Asker × TlbEnt)
  /-- the failed walks of a tile's cells in the cycle under way: tile, ASID, 4 KiB page, and whether the walk met poison (R370) -/
  walks : List (Nat × BitVec 16 × Nat × Bool)
  /-- back-invalidates on their way: half, and whether it invalidates (R391) -/
  snoops : List (Nat × Bool)
  /-- prefetches that wait for a back-invalidate: tile, stored address, for writing (R138, R391) -/
  wanted : List (Nat × Nat × Bool)
  frozen : List FrozenShare
  cogor : Cogor
  answer : Answer
deriving DecidableEq, Repr

/-! ## Reset -/

/-- Nothing pending. -/
def Pending.none : Pending :=
  { deferred := [], late := [], engine := [], fabric := [], gangAbort := [], step := false, preempt := .none,
    further := false }

/-- A scope mask with no member: the value the model gives SM0 to SM15 at reset, where R235 says U (log 5). -/
def Scope.empty : Scope := { tiles := 0, peers := false, host := false, rel := 0 }

/-- A strand right after module reset: Free, every field of R235 at its reset value, the rest at zero (log 5). -/
def Strand.reset : Strand :=
  { run := .free, pc := 0, g := Vector.replicate 32 0, v := Vector.replicate 32 0, m := Vector.replicate 8 0,
    vl := 0, ew := .w64, rm := 0, empty := false, vflags := 0, vpi := 0, pl := false, ppl := false, ss := false,
    pss := false, ta := false, fflags := 0, eeos := false, rflags := 0, rngSeed := 0, rngCtr := 0,
    scopes := Vector.replicate 16 Scope.empty, tvec := 0, tscr := 0, def_ := false, stepped := false, cause := 0,
    epc := 0, trec := 0, tlg := Vector.replicate 8 0, trow := 0, teng := 0, root := 0, asid := 0, resv := .none,
    task := .none, pend := Pending.none, resume := false, outst := [], lost := .none, engwait := false, asked := [], walks := [], kept := [],
    part := .none, partly := 0, begun := .none, reqAt := .none }

/-- A token of zeros. -/
def Token.zero : Token := { vals := Vector.replicate 8 0, tag := 0 }

/-- A cell before its first firing: data registers, predicates and queues empty (R245, R268). -/
def Cell.fresh : Cell :=
  { slots := Vector.replicate 16 0, d := Vector.replicate 8 (Vector.replicate 8 0), p := Vector.replicate 8 0,
    inq := Vector.replicate 4 [], outq := Vector.replicate 4 [], mb := 0, sink := .none, acks := 0,
    flags := Vector.replicate 8 0, committed := .none, ops := [], given := [], held := false, resumed := false }

/-- A port with no binding (R333). -/
def Port.fresh : Port :=
  { st := .unbound, bind := 0, strand := 0, root := 0, asid := 0, sup := false, load := 0, gen := .none, descAddr := 0, desc := Vector.replicate 8 0,
    bcast := false, save := 0, idx := 0, buf := [], pack := [], marker := .none, reported := false, ended := false,
    written := [] }

/-- A tile right after module reset: nothing held, no load, no binding, no translation (R235, R363). -/
def Tile.reset : Tile :=
  { latc := Vector.replicate 8 .none, laneFlags := Vector.replicate 32 0, slices := Vector.replicate 32 0,
    accOwner := Vector.replicate 8 .none, acc := Vector.replicate 8 0, active := .none, shadow := .none,
    ports := Vector.replicate 16 Port.fresh, records := [], l1tlb := [], tlb := [] }

/-- A watch table entry that has not been bound since reset (R352). -/
def WatchEnt.reset : WatchEnt :=
  { desc := Vector.replicate 8 0, armed := false, bound := false, latched := .none, asid := 0xFFFF, fired := 0,
    segs := [], root := 0 }

/-- A compute die right after module reset (R352, R354, R359). -/
def Die.reset : Die :=
  { queue := [], used := 0, watch := [], dlost := 0, hvec := 0, resumeq := [], cycles := 0 }

/-- A memory-side die right after module reset (R393, R412, R413). -/
def MDie.reset : MDie :=
  { counters := Vector.replicate 15 0, ranges := [], used := 0, plim := 725, tlim := 105, pwr := 0, temp := 0, freq := 1000,
    lowWindows := 0, window := 0 }

/-- A line of which nobody holds a copy (R390). -/
def DirLine.idle : DirLine :=
  { mod := .i, sharers := .exact [], copies := [], dlo := false, dhi := false, lo := .n, hi := .n, loBy := [], hiBy := [] }

/-- Cogor at the start of a cold reset of a new part: stage 1, the boot flash and fuses as manufactured (R400, R405,
R408; log 6). -/
def Cogor.reset : Cogor :=
  { stage := 1, err := 0, slotB := false, alarms := 0, bringup := 0xF, svnf := 0, erased := false,
    slotA := Config.flashSlotA, slotBImg := Config.flashSlotB, staging := [], verified := false, copied := 0, running := [],
    partcfg := 0, partNext := 0, rstate := 0, rtile := 0, draining := .none, retmap := 0, flashRetmap := 0, domid := .none,
    deviceLeaf := 0, aliasTree := 0, aliasLeaf := 0, certified := false, spdm := .idle, fatal := false, dumping := .none,
    activating := .none }

/-- The module right after a cold reset (R8, R400). -/
def State.reset : State :=
  { cur := 0, plan := [], issued := [], tick := 0, clock := 0, nextId := 1, strands := [], tiles := [],
    dies := Vector.replicate 4 Die.reset, mdies := Vector.replicate 4 MDie.reset, mem := [], poison := [], dir := [],
    cmds := [], triggers := [], waiting := [], queries := [], asked := [], kept := [], walks := [], snoops := [],
    wanted := [], frozen := [], cogor := Cogor.reset, answer := .none }

end Sys2Proof.Machine
end

