-- ==== Sys2Proof/Machine/Basic.lean ====
section
/-!
DEFINITION. Reading and writing the parts of the state: strands, tiles, dies, general registers, and the step that a
retiring instruction takes. Every meaning reaches the state through these.
-/

namespace Sys2Proof.Machine

/-! ## Numbering (R18) -/

/-- The tile of a strand. -/
def tileOf (k : Nat) : Nat := k / 4

/-- The strand's number within its tile. -/
def subOf (k : Nat) : Fin 4 := ⟨k % 4, Nat.mod_lt k (by decide)⟩

/-- The cask of a tile. -/
def caskOf (t : Nat) : Nat := t / 4

/-- The compute die of a tile. -/
def dieOf (t : Nat) : Nat := t / 160

/-- The compute die of a strand. -/
def dieOfStrand (k : Nat) : Nat := dieOf (tileOf k)

/-- Whether an access is one of a strand's own instructions, or their fetch. -/
def Asker.isStrand : Asker → Bool
  | .strand _ | .fetch _ => true
  | _ => false

/-! ## Parts of the state -/

/-- The HVEC register of die d (R359). -/
def State.hvecOf (s : State) (d : Nat) : Word := (s.dies.getD d Die.reset).hvec

/-- Strand k. A strand that is not listed is as at module reset, with its die's HVEC in TVEC (R359). -/
def State.strand (s : State) (k : Nat) : Strand := s.strands.find { Strand.reset with tvec := s.hvecOf (dieOfStrand k) } k

/-- The state with strand k replaced. -/
def State.setStrand (s : State) (k : Nat) (x : Strand) : State := { s with strands := s.strands.put k x }

/-- The strand that issues. -/
def State.me (s : State) : Strand := s.strand s.cur

/-- The state with the issuing strand changed by f. -/
def State.mapMe (s : State) (f : Strand → Strand) : State := s.setStrand s.cur (f s.me)

/-- The state with strand k changed by f. -/
def State.mapStrand (s : State) (k : Nat) (f : Strand → Strand) : State := s.setStrand k (f (s.strand k))

/-- Tile t. -/
def State.tile (s : State) (t : Nat) : Tile := s.tiles.find Tile.reset t

/-- The state with tile t replaced. -/
def State.setTile (s : State) (t : Nat) (x : Tile) : State := { s with tiles := s.tiles.put t x }

/-- The state with tile t changed by f. -/
def State.mapTile (s : State) (t : Nat) (f : Tile → Tile) : State := s.setTile t (f (s.tile t))

/-- The tile of the issuing strand. -/
def State.myTile (s : State) : Nat := tileOf s.cur

/-- Compute die d. -/
def State.die (s : State) (d : Nat) : Die := s.dies.getD d Die.reset

/-- The state with compute die d changed by f. -/
def State.mapDie (s : State) (d : Nat) (f : Die → Die) : State :=
  { s with dies := s.dies.setIfInBounds d (f (s.die d)) }

/-- Memory-side die d. -/
def State.mdie (s : State) (d : Nat) : MDie := s.mdies.getD d MDie.reset

/-- The state with memory-side die d changed by f. -/
def State.mapMDie (s : State) (d : Nat) (f : MDie → MDie) : State :=
  { s with mdies := s.mdies.setIfInBounds d (f (s.mdie d)) }

/-- The telemetry counters, in the order of R412. -/
inductive Counter where
  | fpreempt | deadlock | underflow | dispgang | dbltrap | badpte | rtimeout | rsvrefuse | engorphan | cecc | uecc
  | poisonuse | govdown | energy | cpllost
deriving DecidableEq, Repr

/-- The place of a counter in the memory-side die's block, in doublewords (R412). -/
def Counter.index : Counter → Nat
  | .fpreempt => 0 | .deadlock => 1 | .underflow => 2 | .dispgang => 3 | .dbltrap => 4 | .badpte => 5 | .rtimeout => 6
  | .rsvrefuse => 7 | .engorphan => 8 | .cecc => 9 | .uecc => 10 | .poisonuse => 11 | .govdown => 12 | .energy => 13
  | .cpllost => 14

/-- One more event of a counter on memory-side die d, modulo 2^64 (R412). -/
def State.count (s : State) (d : Nat) (c : Counter) : State :=
  s.mapMDie d fun m => { m with counters := m.counters.setIfInBounds c.index (m.counters.getD c.index 0 + 1) }

/-- The k-th free value of the run, and the state in which it is used up. -/
def State.free (s : State) : Word × State := (Config.freeWord s.tick, { s with tick := s.tick + 1 })

/-- A number of the model's own that nothing else has had. -/
def State.newId (s : State) : Nat × State := (s.nextId, { s with nextId := s.nextId + 1 })

/-! ## General registers (R97, R113) -/

/-- g register r of a strand; g0 reads as zero. -/
def Strand.readG (x : Strand) (r : Reg) : Word := if r = 0 then 0 else x.g[r.toNat]

/-- The strand with v written to g register r; a write to g0 is discarded. -/
def Strand.writeG (x : Strand) (r : Reg) (v : Word) : Strand :=
  if r = 0 then x else { x with g := x.g.set r.toNat v }

/-- g register r of the issuing strand. -/
def State.readG (s : State) (r : Reg) : Word := s.me.readG r

/-- The state with v written to g register r of the issuing strand. -/
def State.writeG (s : State) (r : Reg) (v : Word) : State := s.mapMe fun x => x.writeG r v

/-! ## Retiring -/

/-- The v registers that the access under way loads (R143). -/
def Strand.partBusy (x : Strand) : BitVec 32 := (x.part.map (·.busy)).getD 0

/-- What is pending once an access that has met deferred errors is complete (R172). -/
def Pending.arrived (p : Pending) : Pending := { p with deferred := p.deferred ++ p.late, late := [] }

/-- What retiring an instruction does to its strand apart from the pc: at user level a single step becomes pending (R244), and the
errors that a vector or accumulator access has met (R172); a resumption after ERET is used up (R241). The registers that the
instruction loads are final, and at user level no register is left partly loaded (R143, R163). -/
def Strand.retired (x : Strand) : Strand :=
  { x with resume := false, asked := [], walks := [], kept := [], part := none, begun := none, engwait := false,
           partly := if x.pl then x.partly &&& ~~~x.partBusy else 0,
           pend := if x.pl then x.pend else { x.pend.arrived with step := x.pend.step || x.ss } }

/-- The state after the issuing strand's instruction retires and its pc becomes a. -/
def State.retireTo (s : State) (a : Word) : State := s.mapMe fun x => { x.retired with pc := a }

/-- The state after the issuing strand's instruction retires in sequence. -/
def State.retire (s : State) : State := s.retireTo (s.me.pc + 4)

/-! ## Traps and results -/

/-- A trap that an instruction takes (R237, R238): cause and address field; epc is none for the instruction itself; busy are the
v registers that it leaves partly loaded (R143). -/
structure Trap where
  cause : BitVec 8
  addr : Word
  epc : Option Word
  stepped : Bool
  deferred : Bool
  tlg : Vector (BitVec 16) 8
  row : BitVec 6
  eng : Word
  busy : BitVec 32
deriving DecidableEq, Repr

/-- Trap(cause, a) of R114, with EPC at the instruction. -/
def Trap.sync (cause : BitVec 8) (a : Word) : Trap :=
  { cause := cause, addr := a, epc := none, stepped := false, deferred := false, tlg := Vector.replicate 8 0, row := 0,
    eng := 0, busy := 0 }

/-- What a part of an instruction comes to: a value, a trap (R12), or a wait, after which the instruction runs again
from its start. -/
inductive Res (α : Type) where
  | ok (a : α) (s : State)
  | trap (t : Trap) (s : State)
  | wait (s : State)
deriving DecidableEq, Repr

/-- r, then f on its value. -/
def Res.bind {α β : Type} (r : Res α) (f : α → State → Res β) : Res β :=
  match r with
  | .ok a s => f a s
  | .trap t s => .trap t s
  | .wait s => .wait s

/-- r, with f applied to the state that it leaves. -/
def Res.after {α : Type} (r : Res α) (f : State → State) : Res α :=
  match r with
  | .ok a s => .ok a (f s)
  | .trap t s => .trap t (f s)
  | .wait s => .wait (f s)

/-- A list of parts in order, each from the state that the one before left. -/
def forEach {α : Type} : List α → (α → State → Res Unit) → State → Res Unit
  | [], _, s => .ok () s
  | x :: xs, f, s => (f x s).bind fun _ s' => forEach xs f s'

/-! ## Pending causes -/

/-- The strand with a deferred error pending (R172). -/
def Strand.addDeferred (x : Strand) (c : BitVec 8) (a : Word) : Strand :=
  { x with pend := { x.pend with deferred := x.pend.deferred ++ [(c, a)] } }

/-- The strand with an error deferred that its request has met: of a vector or accumulator access under way at user level it is
pending from the access's end on (R172). -/
def Strand.defer (x : Strand) (c : BitVec 8) (a : Word) : Strand :=
  if x.part.isSome && !x.pl then { x with pend := { x.pend with late := x.pend.late ++ [(c, a)] } } else x.addDeferred c a

/-- The strand with an engine trap pending (R214). -/
def Strand.addEngine (x : Strand) (c : BitVec 8) (a d : Word) : Strand :=
  { x with pend := { x.pend with engine := x.pend.engine ++ [(c, a, d)] } }

/-- The strand with a Trellis cause pending (R251, R271 to R273). -/
def Strand.addFabric (x : Strand) (c : BitVec 8) (a : Word) : Strand :=
  { x with pend := { x.pend with fabric := x.pend.fabric ++ [(c, a)] } }

end Sys2Proof.Machine
end

