-- ==== Sys2Proof/Machine/Mem.lean ====
section
/-!
DEFINITION. Physical memory: bytes, the address map, homes and slices, and what a write does besides storing its bytes
(R27, R47 to R56, R63, R207, R390, R391).
-/

namespace Sys2Proof.Machine

/-! ## Bytes -/

/-- The byte at address a; an unlisted byte reads as zero (R400, stage 4; log 4). -/
def memGet : List Host.Cell → Nat → Byte
  | [], _ => 0
  | (a', b') :: r, a => if a = a' then b' else memGet r a

/-- The list with a nonzero byte b at address a. -/
def memPut : List Host.Cell → Nat → Byte → List Host.Cell
  | [], a, b => [(a, b)]
  | (a', b') :: r, a, b =>
    if a < a' then (a, b) :: (a', b') :: r
    else if a = a' then (a, b) :: r
    else (a', b') :: memPut r a b

/-- The memory with byte b at address a, in canonical form: zero is not listed. -/
def memSet (m : List Host.Cell) (a : Nat) (b : Byte) : List Host.Cell :=
  if b = 0 then m.filter fun c => c.1 != a else memPut m a b

/-- The memory with the bytes written from address a up. -/
def memSetBytes : List Host.Cell → Nat → List Byte → List Host.Cell
  | m, _, [] => m
  | m, a, b :: bs => memSetBytes (memSet m a b) (a + 1) bs

/-- The n bytes from address a up. -/
def memGetBytes (m : List Host.Cell) : Nat → Nat → List Byte
  | _, 0 => []
  | a, n + 1 => memGet m a :: memGetBytes m (a + 1) n

/-- The canonical form of memory: addresses strictly rising, and no byte listed that is zero. -/
def Memory.wf : List Host.Cell → Bool
  | [] => true
  | (a, b) :: r => b != 0 && (r.all fun c => decide (a < c.1)) && Memory.wf r

/-! ## The physical address map (R47) -/

/-- Where a physical address lies: the level, the unit and the offset within it. -/
inductive Place where
  | hbm (o : Nat)
  | cellar (o : Nat)
  | chip (die o : Nat)
  | cask (c o : Nat)
  | tile (t o : Nat)
  | control (o : Nat)
  | peer (m o : Nat)
  | host (a : Nat)
  | unmapped
deriving DecidableEq, Repr

/-- The place of physical address a for an access that issues on tile t: the own ranges resolve at t (R47, R49). -/
def placeOf (t a : Nat) : Place :=
  if a < 0xC0_0000_0000 then .hbm a
  else if 0x100_0000_0000 ≤ a ∧ a < 0x500_0000_0000 then .cellar (a - 0x100_0000_0000)
  else if 0xF00_0000_0000 ≤ a ∧ a < 0xF00_0800_0000 then
    .chip ((a - 0xF00_0000_0000) / 0x200_0000) ((a - 0xF00_0000_0000) % 0x200_0000)
  else if 0xF00_0800_0000 ≤ a ∧ a < 0xF00_0808_0000 then .tile t (a - 0xF00_0800_0000)
  else if 0xF00_0900_0000 ≤ a ∧ a < 0xF00_0910_0000 then .cask (caskOf t) (a - 0xF00_0900_0000)
  else if 0xF00_0A00_0000 ≤ a ∧ a < 0xF00_0C00_0000 then .chip (dieOf t) (a - 0xF00_0A00_0000)
  else if 0xF00_1000_0000 ≤ a ∧ a < 0xF00_1A00_0000 then
    .cask ((a - 0xF00_1000_0000) / 0x10_0000) ((a - 0xF00_1000_0000) % 0x10_0000)
  else if 0xF00_2000_0000 ≤ a ∧ a < 0xF00_3400_0000 then
    .tile ((a - 0xF00_2000_0000) / 0x8_0000) ((a - 0xF00_2000_0000) % 0x8_0000)
  else if 0xFF0_0000_0000 ≤ a ∧ a < 0x1000_0000_0000 then .control (a - 0xFF0_0000_0000)
  else if 0x4_0000_0000_0000 ≤ a ∧ a < 0x8_0000_0000_0000 then
    .peer ((a - 0x4_0000_0000_0000) / 0x1000_0000_0000) ((a - 0x4_0000_0000_0000) % 0x1000_0000_0000)
  else if 0x8_0000_0000_0000 ≤ a ∧ a < 0x10_0000_0000_0000 then .host a
  else .unmapped

/-- The one address under which the byte at a place is stored: the address of its own unit's range in R47. -/
def Place.key : Place → Nat
  | .hbm o => o
  | .cellar o => 0x100_0000_0000 + o
  | .chip d o => 0xF00_0000_0000 + d * 0x200_0000 + o
  | .cask c o => 0xF00_1000_0000 + c * 0x10_0000 + o
  | .tile t o => 0xF00_2000_0000 + t * 0x8_0000 + o
  | .control o => 0xFF0_0000_0000 + o
  | .peer m o => 0x4_0000_0000_0000 + m * 0x1000_0000_0000 + o
  | .host a => a
  | .unmapped => 0

/-- The window of the module's own domain number is an alias of its HBM and Cellar ranges, and of nothing else (R50). -/
def State.resolveAlias (s : State) : Place → Place
  | .peer m o =>
    if s.cogor.domid.map BitVec.toNat = some m then
      match placeOf 0 o with
      | .hbm a => .hbm a
      | .cellar a => .cellar a
      | _ => .unmapped
    else .peer m o
  | p => p

/-- Whether tile t is fused off or retired (R14, R417). -/
def State.tileOut (s : State) (t : Nat) : Bool := s.cogor.retmap.getLsbD t

/-- The partition of compute die d and its memory-side die (R418). -/
def State.partOfDie (s : State) (d : Nat) : Nat := field s.cogor.partcfg (2 * d) 2

/-- Whether a tile of die d may reach a place, as far as the partitions of R346 and R418 decide. -/
def State.samePart (s : State) (d : Nat) : Place → Bool
  | .hbm o => field s.cogor.partcfg (24 + 2 * (o / 0x10_0000_0000)) 2 == s.partOfDie d
  | .cellar o => field s.cogor.partcfg (8 + 2 * (o / 0x80_0000_0000)) 2 == s.partOfDie d
  | .chip d' _ => s.partOfDie d' == s.partOfDie d
  | .cask c _ => s.partOfDie (c / 40) == s.partOfDie d
  | .tile t _ => s.partOfDie (dieOf t) == s.partOfDie d
  | .control o =>
    if o < 0x4000_0000 then s.partOfDie (o / 0x1000_0000) == s.partOfDie d
    else if 0x8_0000_0000 ≤ o ∧ o < 0x8_4000_0000 then
      s.partOfDie ((o - 0x8_0000_0000) / 0x1000_0000) == s.partOfDie d
    else true
  | _ => true

/-- Whether a tile may access a place other than the control space at all: R48, R50, R346, R409. -/
def State.mayReach (s : State) (t : Nat) (p : Place) : Bool :=
  s.samePart (dieOf t) p &&
  match p with
  | .hbm o => decide (o < 0xBF_8000_0000)
  | .cellar _ | .chip _ _ | .host _ => true
  | .cask c o => !s.tileOut (4 * c + o / 0x4_0000)
  | .tile t' _ => !s.tileOut t'
  | .peer _ o =>
    s.cogor.domid.isSome && (decide (o < 0xC0_0000_0000) || (decide (0x100_0000_0000 ≤ o) && decide (o < 0x500_0000_0000)))
  | .control _ | .unmapped => false

/-- Whether a place lies in a share of cask memory that a gang fault has frozen (R387). -/
def State.isFrozen (s : State) : Place → Bool
  | .cask c o => s.frozen.any fun f => f.cask == c && f.share == o / 0x4_0000
  | _ => false

/-- Whether a place is one that directories manage: HBM, Cellar, peer or host memory (R59, R390, R392). -/
def Place.coherent : Place → Bool
  | .hbm _ | .cellar _ | .peer _ _ | .host _ => true
  | _ => false

/-- Whether a place is a scratchpad level (R55). -/
def Place.scratch : Place → Bool
  | .chip _ _ | .cask _ _ | .tile _ _ => true
  | _ => false

/-! ## Homes (R52 to R54) -/

/-- The memory-side die that is home to an HBM or Cellar address (R52, R53, R54). -/
def homeDie (key : Nat) : Nat :=
  if key < 0xC0_0000_0000 then (key / 128) % 12 / 3 else (key - 0x100_0000_0000) / 0x80_0000_0000 / 2

/-- The directory slice of an address on its home die (R54). -/
def homeSlice (key : Nat) : Nat := ((key / 128) % 16) ^^^ ((key / 2048) % 16)

/-- The line of a stored address. -/
def lineOf (key : Nat) : Nat := key / 128

/-- The aligned 64-byte half of a stored address, the unit of poison and of CXL (R388, R390). -/
def halfOf (key : Nat) : Nat := key / 64

/-! ## Directory states (R390, R391) -/

/-- The directory state of a line. -/
def State.dirLine (s : State) (l : Nat) : DirLine := s.dir.find DirLine.idle l

/-- The host part of half h of the module: the even half of a line is its low one. -/
def State.halfState (s : State) (h : Nat) : Half :=
  if h % 2 = 0 then (s.dirLine (h / 2)).lo else (s.dirLine (h / 2)).hi

/-- Those outside the module that hold half h of a line homed here. -/
def State.holders (s : State) (h : Nat) : List Requester :=
  if h % 2 = 0 then (s.dirLine (h / 2)).loBy else (s.dirLine (h / 2)).hiBy

/-- The state with the holders of half h replaced. -/
def State.setHolders (s : State) (h : Nat) (l : List Requester) : State :=
  let d := s.dirLine (h / 2)
  { s with dir := s.dir.put (h / 2) (if h % 2 = 0 then { d with loBy := l } else { d with hiBy := l }) }

/-- The state with the host part of half h replaced. -/
def State.setHalf (s : State) (h : Nat) (x : Half) : State :=
  let d := s.dirLine (h / 2)
  { s with dir := s.dir.put (h / 2) (if h % 2 = 0 then { d with lo := x } else { d with hi := x }) }

/-- Whether a line is homed at one of the module's own directories. -/
def homedHere (key : Nat) : Bool := decide (key < 0x500_0000_0000)

/-- The memory-side die at which a line is tracked: its home; M0 for a line that is homed outside the module (log 12). -/
def trackDie (key : Nat) : Nat := if homedHere key then homeDie key else 0

/-- The halves of a line homed here that the host or a peer holds: an atomic at the home takes every one of them back (R396). -/
def State.heldHalves (s : State) (key : Nat) : List (Nat × Bool) :=
  let d := s.dirLine (lineOf key)
  if !homedHere key then [] else
  (if d.lo = .n then [] else [(2 * lineOf key, true)]) ++ (if d.hi = .n then [] else [(2 * lineOf key + 1, true)])

/-- The back-invalidates that an access of the module to a line homed here needs before it is performed: a read of a half held
exclusive needs BISnpData; a write of a held half, and with no half exclusive every held half of the line, needs BISnpInv
(R391). -/
def State.snoopsFor (s : State) (key : Nat) (write : Bool) : List (Nat × Bool) :=
  let h := halfOf key
  let d := s.dirLine (lineOf key)
  if !homedHere key then []
  else if write then
    if d.lo = .e ∨ d.hi = .e then (if s.halfState h = .n then [] else [(h, true)]) else s.heldHalves key
  else if s.halfState h = .e then [(h, false)] else []

/-- The state with back-invalidates sent, each once. -/
def State.sendSnoops (s : State) (l : List (Nat × Bool)) : State :=
  { s with snoops := s.snoops ++ l.filter fun x => !s.snoops.contains x }

/-! ## Copies in the module's caches (R19, R59, R60, R390 to R392) -/

/-- The compute die of a cache. -/
def Cache.die : Cache → Nat
  | .l1d t => dieOf t
  | .l1i t => dieOf t
  | .l2 d => d

/-- The lines that a cache holds at most in one of its sets: the L1D is 8-way and the L2 16-way; of the L1I the manual gives
only the size, 512 lines (R19, R59, R60). -/
def Cache.ways : Cache → Nat
  | .l1d _ => 8
  | .l1i _ => 512
  | .l2 _ => 16

/-- The set of a line: in the L1D of 128 sets by the low bits of its number; in the L2 by the memory tile of R60 and, within
its 1,024 sets, the next bits (log 9). -/
def Cache.setOf (c : Cache) (line : Nat) : Nat :=
  match c with
  | .l1d _ => line % 128
  | .l1i _ => 0
  | .l2 _ => ((line % 32) ^^^ (line / 32 % 32)) + 32 * (line / 32 % 1024)

/-- The record with one more sharer: more than four become one bit per compute die (R390). -/
def Sharers.add (r : Sharers) (c : Cache) : Sharers :=
  let bit (v : BitVec 4) (d : Nat) : BitVec 4 := v ||| (1 <<< d)
  match r with
  | .exact l => if l.contains c then .exact l
    else if l.length < 4 then .exact (l ++ [c])
    else .dies (bit (l.foldl (fun v x => bit v x.die) 0) c.die)
  | .dies v => .dies (bit v c.die)

/-- The line with no copy in the module. -/
def DirLine.clear (d : DirLine) : DirLine :=
  { d with mod := .i, sharers := .exact [], copies := [], dlo := false, dhi := false }

/-- The line whose owner's copy, if there is one, has been written back and is shared (R391). -/
def DirLine.shared (d : DirLine) : DirLine := if d.mod = .o then { d with mod := .s, dlo := false, dhi := false } else d

/-- Line l once its owner's copy has been written back and is shared. Of a line homed outside it goes back to the bridge, which keeps
what is modified until the home snoops it (R391, R392). -/
def State.sharedLine (s : State) (l : Nat) : DirLine :=
  let d := s.dirLine l
  if homedHere (128 * l) then d.shared else { d.shared with dlo := d.dlo, dhi := d.dhi }

/-- The line with one more shared copy. -/
def DirLine.share (d : DirLine) (c : Cache) : DirLine :=
  if d.copies.contains c then { d with mod := .s }
  else { d with mod := .s, copies := d.copies ++ [c], sharers := d.sharers.add c }

/-- The line once some caches have dropped their copies; a vector of dies stays as it is while a copy is left. -/
def DirLine.without (d : DirLine) (gone : Cache → Bool) : DirLine :=
  let l := d.copies.filter fun c => !gone c
  if l.isEmpty then d.clear
  else { d with copies := l, sharers := match d.sharers with
                  | .exact r => .exact (r.filter fun c => !gone c)
                  | .dies v => .dies v }

/-- Line l once every copy is gone. What is modified of a line homed outside stays with the bridge until its home snoops it (R392). -/
def State.clearedLine (s : State) (l : Nat) : DirLine :=
  let d := s.dirLine l
  if homedHere (128 * l) then d.clear else { d.clear with dlo := d.dlo, dhi := d.dhi }

/-- Line l once some caches have dropped their copies, and what is modified of a line homed outside is back at the bridge (R392). -/
def State.lineWithout (s : State) (l : Nat) (gone : Cache → Bool) : DirLine :=
  let d := s.dirLine l
  if homedHere (128 * l) then d.without gone else { d.without gone with dlo := d.dlo, dhi := d.dhi }

/-- The state after cache c has made room for a line: of a set that holds more lines than it has ways, one other line gives
way, which one the manual leaves open (R59, R60). -/
def State.evictFor (s : State) (c : Cache) (line : Nat) : State :=
  let inCache := s.dir.filter fun e => e.2.copies.contains c
  if inCache.length ≤ c.ways then s else
  let others := (inCache.map (·.1)).filter fun l => c.setOf l == c.setOf line && l != line
  if others.length < c.ways then s else
  let l := others.getD (Config.victim s.clock others % others.length) 0
  { s with dir := s.dir.put l (s.lineWithout l fun x => x == c) }

/-- The state after the bridge has come to hold half h of a line homed outside; poison that comes with it is counted (R388, R392,
R412). -/
def State.takeHalf (s : State) (h : Nat) (x : Half) : State :=
  let s' := if s.halfState h = .n ∧ s.poison.contains h then s.count (trackDie (64 * h)) .uecc else s
  s'.setHalf h x

/-- The state once the bridge holds both halves of a line homed outside: read-only at least, or exclusive (R392). -/
def State.takeLine (s : State) (l : Nat) (exclusive : Bool) : State :=
  let up (h : Half) : Half := if exclusive then .e else if h = .n then .s else h
  (s.takeHalf (2 * l) (up (s.dirLine l).lo)).takeHalf (2 * l + 1) (up (s.dirLine l).hi)

/-- The directory state after cache c has a line for reading, its die's L2 with it, or owns it for writing, which leaves no
other copy. While a half of a line homed here is exclusive outside, no copy is made (R390, R391); of a line homed outside the
bridge takes both halves first (R392). -/
def State.fill (s : State) (c : Cache) (key : Nat) (write : Bool) : State :=
  let l := lineOf key
  let d := s.dirLine l
  if homedHere key && (d.lo == .e || d.hi == .e) then s
  else
    let s := if homedHere key then s else s.takeLine l write
    let d := s.dirLine l
    if write then
      if homedHere key && !(d.lo == .n && d.hi == .n) then s
      else
        let own := (d.mod = .o ∧ d.copies = [c]) ∨ !homedHere key
        let low := halfOf key % 2 == 0
        (({ s with dir := s.dir.put l { d with mod := .o, sharers := .exact [c], copies := [c],
                                               dlo := low || (decide own && d.dlo), dhi := !low || (decide own && d.dhi) } })).evictFor c l
    else if d.mod = .o ∧ d.copies = [c] then { s with dir := s.dir.put l d }
    else ({ s with dir := s.dir.put l (((s.sharedLine l).share c).share (.l2 c.die)) }.evictFor c l).evictFor (.l2 c.die) l

/-- The directory state after an access performed at the home slice itself: an uncached access, a device write. A write leaves
no copy anywhere in the module, a read no modified one (R365, R391). What the bridge holds modified of a line homed outside stays
so until the home snoops it (R392). -/
def State.atHome (s : State) (key : Nat) (write : Bool) : State :=
  let d := s.dirLine (lineOf key)
  let d' := if write then s.clearedLine (lineOf key) else s.sharedLine (lineOf key)
  if d' = d then s else { s with dir := s.dir.put (lineOf key) d' }

/-- The directory state after an atomic at the home: no cached copy is left, whether it writes or not (R204, R396). Of a line
homed outside the bridge takes the half of the word exclusive, and keeps what is modified until the home snoops it (R392). -/
def State.atomicHome (s : State) (key : Nat) (write : Bool) : State :=
  if homedHere key then s.atHome key true
  else
    let s := s.atHome key true
    let d := s.dirLine (lineOf key)
    let low := halfOf key % 2 == 0
    let d' := { d with dlo := d.dlo || (write && low), dhi := d.dhi || (write && !low) }
    { s with dir := s.dir.put (lineOf key) d' }.takeHalf (halfOf key) .e

/-! ## Poison (R388) -/

/-- Whether any half that the n bytes at key touch is poisoned. -/
def State.isPoisoned (s : State) (key n : Nat) : Bool :=
  s.poison.any fun h => decide (halfOf key ≤ h) && decide (h ≤ halfOf (key + n - 1))

/-- The state after poison has come with a half: of one that comes over CXL it is counted (R388, R412). -/
def State.poisonArrives (s : State) (key : Nat) : State :=
  if homedHere key || !(decide (0x4_0000_0000_0000 ≤ key)) || s.halfState (halfOf key) != .n then s
  else s.takeHalf (halfOf key) .s

/-- The state after an access of tile t has met poison: the consumption is counted, and where the half came over CXL, its arrival
(R388, R412). -/
def State.usePoison (s : State) (t key : Nat) : State := (s.count (dieOf t) .poisonuse).poisonArrives key

/-- The address under which the poison of a lane slice is kept: past every stored address, 4 KiB for each lane of each tile
(R57, R416). -/
def sliceKey (t l : Nat) : Nat := 0x1000_0000_0000_0000 + (32 * t + l) * 0x1000

/-- The state with half h poisoned. -/
def State.addPoison (s : State) (h : Nat) : State :=
  { s with poison := if s.poison.contains h then s.poison else s.poison ++ [h] }

/-- The state after one instruction or one engine unit has written all the spans given (address, bytes): each poisoned
half that they cover whole is clean (R388). -/
def State.unpoison (s : State) (spans : List (Nat × Nat)) : State :=
  if s.poison.isEmpty then s else
  { s with poison := s.poison.filter fun h =>
      !((List.range 64).all fun i => spans.any fun x => decide (x.1 ≤ 64 * h + i) && decide (64 * h + i < x.1 + x.2)) }

/-! ## What a write does besides (R27, R63, R207, R353) -/

/-- The virtual address that a physical one has under the translation a watch entry's bind took (R351). -/
def segVirtual : List (Nat × Nat × Nat) → Nat → Option Nat
  | [], _ => none
  | (va, pa, n) :: r, a => if pa ≤ a ∧ a < pa + n then some (va + (a - pa)) else segVirtual r a

/-- The physical address that a virtual one has under that translation. -/
def segPhysical : List (Nat × Nat × Nat) → Nat → Option Nat
  | [], _ => none
  | (va, pa, n) :: r, a => if va ≤ a ∧ a < va + n then some (pa + (a - va)) else segPhysical r a

/-- The lowest virtual address, within the entry's range, of a byte that the spans wrote (R353). -/
def lowestIn (segs : List (Nat × Nat × Nat)) (spans : List (Nat × Nat)) : Option Nat :=
  (segs.flatMap fun g => spans.filterMap fun x =>
      let lo := max g.2.1 x.1
      let hi := min (g.2.1 + g.2.2) (x.1 + x.2)
      if lo < hi then some (g.1 + (lo - g.2.1)) else none).foldl
    (fun m v => match m with | none => some v | some w => some (min v w)) none

/-- Whether spans touch any of the n bytes at physical address a. -/
def touches (spans : List (Nat × Nat)) (a n : Nat) : Bool :=
  spans.any fun x => decide (x.1 < a + n) && decide (a < x.1 + x.2)

/-- Whether an armed entry's condition for a trigger holds of a write that has just been performed: mode WRITE, any
byte of the range; mode ZERO, a byte of the counter word, which the write leaves at zero (R27). -/
def State.condHolds (s : State) (e : WatchEnt) (spans : List (Nat × Nat)) : Bool :=
  (lowestIn e.segs spans).isSome &&
  if e.desc[1].getLsbD 6 then
    match segPhysical e.segs ((e.desc[0].toNat + e.desc[2].toNat) % 2 ^ 64) with
    | none => false
    | some p => touches spans p 4 && leNat (memGetBytes s.mem p 4) == 0
  else true

/-- The physical address at which a write meets an armed entry: in mode WRITE its lowest byte within the range, in mode ZERO the
counter word. Its home slice serialises the write for the trigger (R27, R353). -/
def WatchEnt.meetsAt (e : WatchEnt) (spans : List (Nat × Nat)) : Option Nat :=
  if e.desc[1].getLsbD 6 then segPhysical e.segs ((e.desc[0].toNat + e.desc[2].toNat) % 2 ^ 64)
  else (lowestIn e.segs spans).bind (segPhysical e.segs)

/-- The triggers that a write sends to the watch table of die d (R27, R353, R401). -/
def State.triggersAt (s : State) (d : Nat) (who : Option Asker) (spans : List (Nat × Nat)) : List Trigger :=
  if s.cogor.bringup.getLsbD d then [] else
  (s.die d).watch.filterMap fun ne =>
    let key := (ne.2.meetsAt spans).getD 0
    if ne.2.armed && s.condHolds ne.2 spans then
      some { die := d, entry := ne.1, spans := spans, writer := who, slice := 16 * homeDie key + homeSlice key,
             due := s.clock + if homeDie key = d then 30 else 80 }
    else none

/-- The state with the triggers of a write sent (R27). -/
def State.sendTriggers (s : State) (who : Option Asker) (spans : List (Nat × Nat)) : State :=
  { s with triggers := s.triggers ++ ((List.range 4).flatMap fun d => s.triggersAt d who spans) }

/-- Whether a write of a party is not yet complete because its trigger has not been enqueued: it is on its way, or its record
waits for a slot of a full queue (R355). -/
def State.owes (s : State) (w : Asker) : Bool :=
  (s.triggers.any fun t => t.writer == some w) || s.waiting.any fun r => r.writer == some w

/-- What a write to the lines from l to l' does to a strand: another party's load reservation on them is lost (R207),
and a sleeper that watches one is woken (R63). -/
def Strand.meetsWrite (l l' : Nat) (own : Bool) (x : Strand) : Strand :=
  let x := match x.resv with
    | some r => if !own && decide (l ≤ lineOf r.pa) && decide (lineOf r.pa ≤ l') then { x with resv := none } else x
    | none => x
  match x.run with
  | .sleeping c aq a v t i line _ =>
    if l ≤ line ∧ line ≤ l' then { x with run := .sleeping c aq a v t i line true } else x
  | _ => x

/-- The number of a strand that writes for itself. -/
def Asker.number : Asker → Option Nat
  | .strand k => some k
  | _ => none

/-- The bytes stored at key by a party (a strand's number, or none), with lost reservations and woken sleepers. -/
def State.storeRaw (s : State) (party : Option Nat) (key : Nat) (bs : List Byte) : State :=
  { s with mem := memSetBytes s.mem key bs,
           strands := s.strands.map fun e =>
             (e.1, e.2.meetsWrite (lineOf key) (lineOf (key + bs.length - 1)) (party == some e.1)) }

/-- A write of bytes at key that is complete at its home: stored, and its triggers sent (R27). -/
def State.store (s : State) (who : Option Asker) (key : Nat) (bs : List Byte) : State :=
  let s := s.storeRaw (who.bind Asker.number) key bs
  if homedHere key then s.sendTriggers who [(key, bs.length)] else s

/-- The little-endian value of the n bytes at key. -/
def State.load (s : State) (key n : Nat) : Nat := leNat (memGetBytes s.mem key n)

/-- The doubleword at key. -/
def State.load64 (s : State) (key : Nat) : Word := BitVec.ofNat 64 (s.load key 8)

end Sys2Proof.Machine
end

