-- ==== Sys2Proof/Machine/Access.lean ====
section
/-!
DEFINITION. From a virtual address to the bytes: translation (R362 to R373), the checks of an access (R48, R114, R136),
range reservations (R223, R287, R394), back-invalidates (R391), poison (R388) and remote timeouts (R389).
-/

namespace Sys2Proof.Machine

/-- Under whose name an access is made: the tile it issues on, translation context and level, the strand it belongs to
if it is a strand's own access, the binding it belongs to if it is a stream's, and who makes it (R275, R362). -/
structure Ctx where
  tile : Nat
  root : BitVec 40
  asid : BitVec 16
  sup : Bool
  party : Option Nat
  bind : Nat
  who : Asker
deriving DecidableEq, Repr

/-- The context of strand k's own accesses. -/
def State.ctxOf (s : State) (k : Nat) : Ctx :=
  let x := s.strand k
  { tile := tileOf k, root := x.root, asid := x.asid, sup := x.pl, party := some k, bind := 0, who := .strand k }

/-- The context of the issuing strand's accesses. -/
def State.ctx (s : State) : Ctx := s.ctxOf s.cur

/-! ## Page tables (R364 to R368) -/

/-- The bytes of a page of each SIZE code (R366). -/
def pageBytes (code : Nat) : Nat :=
  [0x1000, 0x4000, 0x1_0000, 0x4_0000, 0x10_0000, 0x20_0000, 0x40_0000, 0x100_0000, 0x400_0000, 0x1000_0000,
   0x4000_0000, 0x1_0000_0000, 0x4_0000_0000, 0x10_0000_0000, 0x40_0000_0000, 0x80_0000_0000].getD code 0x1000

/-- The level to which each SIZE code belongs (R366). -/
def pageLevel (code : Nat) : Nat := code / 5

/-- The page fault of each kind of access (R362). -/
def pageFault : AccKind → BitVec 8
  | .fetch => 0x06
  | .load => 0x04
  | .store => 0x05

/-- What a walk comes to: a leaf with the address it was read at, a failure, or an entry whose read has to wait (R287, R391). -/
inductive Walk where
  | leaf (pte : Word) (at_ : Nat)
  | fault (malformed : Bool)
  | violation
  | poisoned
  | held (key : Nat)
deriving DecidableEq, Repr

/-- Whether an entry with V = 1 and LEAF = 0 is well formed at its level (R364, R365). -/
def pointerOk (level : Nat) (e : Word) : Bool :=
  decide (0 < level) && field e 2 10 == 0 && field e 52 8 == 0

/-- Whether an entry with V = 1 and LEAF = 1 is well formed at its level (R364 to R366). -/
def leafOk (level : Nat) (e : Word) : Bool :=
  decide (level < 4) && pageLevel (field e 56 4) == level && field e 52 4 == 0 && decide (field e 10 2 < 2) &&
  (field e 12 40 * 0x1000) % pageBytes (field e 56 4) == 0

/-! ## Range reservations (R223, R287, R393) -/

/-- Whether an entry on die d covers a line. -/
def RangeEnt.covers (r : RangeEnt) (l : Nat) : Bool :=
  decide (lineOf r.plo ≤ l) && decide (l < lineOf r.plo + r.nlines)

/-- The covered flag of a line: whether a range reservation covers it (R390). -/
def State.covered (s : State) (l : Nat) : Bool := (s.mdie (trackDie (128 * l))).ranges.any fun e => e.2.covers l

/-- The first entry that an access by anyone but binding b meets (R287). -/
def State.meets (s : State) (b : Nat) (key : Nat) (write : Bool) : Option RangeEnt :=
  ((s.mdie (trackDie key)).ranges.find? fun e =>
    e.2.bind != b && e.2.covers (lineOf key) && (write || e.2.write)).map (·.2)

/-- The state after an access by c to line l, homed on die d, under policy split asks for the stream's position: once for one
held access, and not while another die's query is under way (R223, R394). -/
def State.query (s : State) (c : Ctx) (b l d : Nat) : State :=
  let s' := if s.queries.any fun q => q.1 == b && q.2 != d then s else { s with queries := s.queries ++ [(b, d)] }
  match c.who with
  | .strand k =>
    if (s.strand k).asked.contains (b, l) then s else s'.mapStrand k fun x => { x with asked := x.asked ++ [(b, l)] }
  | w => if s.asked.contains (w, b, l) then s else { s' with asked := s.asked ++ [(w, b, l)] }

/-! ## The gate of a line (R223, R391) -/

/-- What stands before an access to a stored address: nothing, a range reservation under policy trap, split or wait, or
back-invalidates. -/
inductive Gate where
  | open_
  | conflict
  | query (bind : Nat)
  | shut
  | snoop (l : List (Nat × Bool))
deriving DecidableEq, Repr

/-- Whether an engine command other than b holds its write reservation, of policy wait, over the line of a stored address (R214). -/
def State.engineHolds (s : State) (b key : Nat) : Bool :=
  s.cmds.any fun e => e.1 != b && e.2.lines.contains (lineOf key)

/-- The gate of an access under binding or command b, for reading or writing; an atomic at the home takes back every held half. -/
def State.gate (s : State) (b key : Nat) (write atomic : Bool) : Gate :=
  match s.meets b key write with
  | some r => if r.policy = 2 then .conflict else if r.policy = 1 then .query r.bind else .shut
  | none =>
    if s.engineHolds b key then .shut else
    match if atomic then s.heldHalves key else s.snoopsFor key write with
    | [] => .open_
    | l => .snoop l

/-- The state in which a vector or accumulator access of a strand waits at a range reservation (R173). -/
def State.markShut (s : State) (c : Ctx) : State :=
  match c.party with
  | some k => if (s.strand k).part.isSome then
      s.mapStrand k fun x => { x with part := x.part.map fun p => { p with shut := true } } else s
  | none => s

/-- Whether the position query of a strand's held access to line l has been answered, with the line still in the reservation of binding b
(R223, R394). -/
def State.queryDone (s : State) (c : Ctx) (b l : Nat) : Bool :=
  c.party.any fun k => (s.strand k).asked.contains (b, l) && !s.queries.any fun q => q.1 == b

/-- The state after an access has been held at a gate: what it asks for is on its way. It waits at a reservation under policy split
once its query is answered (R173, R223). -/
def State.hold (s : State) (c : Ctx) (key : Nat) : Gate → State
  | .query b => (if s.queryDone c b (lineOf key) then s.markShut c else s).query c b (lineOf key) (trackDie key)
  | .shut => s.markShut c
  | .snoop l => s.sendSnoops l
  | _ => s

/-- An access that stands before a gate: it goes on, takes Reservation Conflict, or waits. -/
def State.pass (s : State) (c : Ctx) (va : Word) (key : Nat) (g : Gate) : Res Unit :=
  match g with
  | .open_ => .ok () s
  | .conflict => .trap (Trap.sync 0x0B va) s
  | g => .wait (s.hold c key g)

/-! ## Requests whose response does not arrive (R389) -/

/-- Whether an access to a stored address leaves its module or crosses to a home on another memory-side die than that of
tile t (R389). -/
def Place.leaves (p : Place) (t : Nat) : Bool := p.coherent && (!homedHere p.key || homeDie p.key != dieOf t)

/-- Where the response to strand k's next request that leaves the die is lost, the first access that is such a request waits until
100 µs have passed since it was made; those of the strand's other parties go on (R389). -/
def State.awaitLost (s : State) (k : Nat) (who : Asker) (leaves : Bool) : Res Unit :=
  if !leaves then .ok () s
  else match (s.strand k).lost with
    | none => .ok () s
    | some (b, none) => .wait (s.mapStrand k fun x => { x with lost := some (b, some (who, s.clock)) })
    | some (_, some (w, t)) => if w ≠ who ∨ t + 100_000 ≤ s.clock then .ok () s else .wait s

/-- Whether the response to a party's request that leaves the die is the one that strand k has lost, and if so whether the request is
performed all the same. -/
def State.lostFor (s : State) (k : Nat) (who : Asker) : Option Bool :=
  match (s.strand k).lost with
  | some (b, some (w, _)) => if w = who then some b else none
  | _ => none

/-- The state once the timeout of a request of strand k has been counted, and the mark is used up (R389, R412). -/
def State.lostTaken (s : State) (k : Nat) : State :=
  (s.mapStrand k fun x => { x with lost := none }).count (dieOfStrand k) .rtimeout

/-- The state after a request of strand k has met the timeout that was waiting for it (R389): counted, and Remote
Timeout deferred (R172). -/
def State.timeOut (s : State) (k : Nat) (va : Word) : State := (s.mapStrand k fun x => x.defer 0x19 va).lostTaken k

/-- The load of a tile's planes with this number, if there is one. -/
def Tile.load? (y : Tile) (id : Nat) : Option Load :=
  match y.active.filter fun l => l.id == id with
  | some l => some l
  | none => y.shadow.filter fun l => l.id == id

/-- The strand in whose name a party makes its requests: its own, the owner of a cell's load, the binder of a stream. The Trellis's own
accesses, under the number 64, are nobody's. -/
def State.nameOf (s : State) (c : Ctx) : Option Nat :=
  match c.who with
  | .strand _ | .fetch _ => c.party
  | .cell id n => if n = 64 then none else ((s.tile c.tile).load? id).map (·.owner)
  | .stream b => ((s.tile c.tile).ports.toList.find? fun x => x.st != .unbound && x.bind == b).map (·.strand)
  | _ => none

/-- What the reads of a walk at some stored addresses come to (R389): where one of them leaves the die and its response is lost, a
strand's Remote Timeout is deferred and the read is made again; a cell's or a port's access fails with it; an engine's command may
time out there (log 110). -/
def State.walkReads (s : State) (c : Ctx) (va : Word) (path : List Nat) : Res Unit :=
  let far := path.any fun k => homeDie k != dieOf c.tile
  match s.nameOf c with
  | some k =>
    (s.awaitLost k c.who far).bind fun _ s =>
      if !far || (s.lostFor k c.who).isNone then .ok () s
      else if c.party.isSome then .ok () (s.timeOut k va)
      else .trap (Trap.sync 0x19 va) (s.lostTaken k)
  | none => .ok () (match c.who, far with
    | .command id, true | .engRead id _ _, true => { s with cmds := s.cmds.map fun e => if e.1 = id then (id, { e.2 with run := { e.2.run with far := true } }) else e }
    | _, _ => s)

/-! ## Walks (R364 to R370) -/

/-- What stands before the read of a table entry: the gate of a read of its line, of which a fetch's walk meets only held halves
(R287, R391). -/
def State.walkGate (s : State) (b key : Nat) (kind : AccKind) : Gate :=
  if kind = .fetch then
    match s.snoopsFor key false with
    | [] => .open_
    | l => .snoop l
  else s.gate b key false false

/-- The walk of an access from the table of level l at physical address base, with the stored addresses of the entries read
(R364). Its reads are of HBM or Cellar only (R363), and each meets reservations and held halves as a read of its line does (R287,
R391). -/
def State.walkFrom (s : State) (t b : Nat) (va : Word) (kind : AccKind) : Nat → Nat → Walk × List Nat
  | l, base =>
    let a := base + 8 * field va (12 + 9 * l) 9
    let p := placeOf t a
    match p with
    | .hbm _ | .cellar _ =>
      if !s.mayReach t p then (.violation, [])
      else if s.walkGate b p.key kind ≠ .open_ then (.held p.key, [])
      else if s.isPoisoned p.key 8 then (.poisoned, [p.key])
      else
        let e := s.load64 p.key
        if !e.getLsbD 0 then (.fault false, [p.key])
        else if e.getLsbD 1 then (if leafOk l e then .leaf e p.key else .fault true, [p.key])
        else if !pointerOk l e then (.fault true, [p.key])
        else match l with
          | 0 => (.fault true, [p.key])
          | l' + 1 =>
            let w := s.walkFrom t b va kind l' (field e 12 40 * 0x1000)
            (w.1, p.key :: w.2)
    | _ => (.violation, [])

/-- The walk under a context's root (R363, R364). -/
def State.walk (s : State) (c : Ctx) (va : Word) (kind : AccKind) : Walk × List Nat :=
  s.walkFrom c.tile c.bind va kind 4 (c.root.toNat * 0x1000)

/-- Whether a leaf permits an access (R367). -/
def leafPermits (e : Word) (kind : AccKind) (sup : Bool) : Bool :=
  (match kind with
    | .load => e.getLsbD 2
    | .fetch => e.getLsbD 4
    | .store => e.getLsbD 3 && !e.getLsbD 9) && (sup || e.getLsbD 5)

/-- The translation entry that a leaf read at a gives for the page of va (R366, R369). -/
def tlbEntry (asid : BitVec 16) (va : Word) (e : Word) (a : Nat) : TlbEnt :=
  let n := pageBytes (field e 56 4)
  { asid := asid, glob := e.getLsbD 6, va := alignDown va.toNat n, size := n, pa := field e 12 40 * 0x1000, pte := e, at_ := a }

/-- Whether an entry serves an address under an ASID (R365, R369). -/
def TlbEnt.serves (t : TlbEnt) (asid : BitVec 16) (va : Word) : Bool :=
  (t.glob || t.asid == asid) && decide (t.va ≤ va.toNat) && decide (va.toNat < t.va + t.size)

/-- What a translation comes to: the physical address, whether the page is uncached, and the entry it goes through; the cause
it fails with; or a wait. -/
inductive Tr where
  | ok (pa : Nat) (uncached : Bool) (ent : Option TlbEnt)
  | fail (cause : BitVec 8)
  | hold
deriving DecidableEq, Repr

/-- The physical address that an entry gives (R366). -/
def TlbEnt.result (t : TlbEnt) (va : Word) : Tr := .ok (t.pa + (va.toNat - t.va)) (field t.pte 10 2 == 1) (some t)

/-- A buffer of n entries with a new one for the page of va, in the place of those that served va; in a full one another entry
gives way, which one the manual leaves open (R369). -/
def tlbInsert (n time : Nat) (e : TlbEnt) (asid : BitVec 16) (va : Word) (l : List TlbEnt) : List TlbEnt :=
  let r := l.filter fun x => !x.serves asid va
  if r.length < n then e :: r
  else e :: r.eraseIdx (Config.victim time (r.map (·.va)) % r.length)

/-- The state after an entry has been installed for a context: in the second level, and in the first for an access of a
strand (R369). -/
def State.installTlb (s : State) (c : Ctx) (va : Word) (e : TlbEnt) : State :=
  s.mapTile c.tile fun t =>
    { t with tlb := tlbInsert 4096 s.clock e c.asid va t.tlb,
             l1tlb := if c.party.isSome then tlbInsert 512 s.clock e c.asid va t.l1tlb else t.l1tlb }

/-- The entry that serves an address, if a buffer holds one: a strand's access looks in the first level, and takes an entry of
the second into it; every other access looks in the second (R369). -/
def State.lookupTlb (s : State) (c : Ctx) (va : Word) : Option TlbEnt × State :=
  let t := s.tile c.tile
  match if c.party.isSome then t.l1tlb.find? fun x => x.serves c.asid va else none with
  | some e => (some e, s)
  | none =>
    match t.tlb.find? fun x => x.serves c.asid va with
    | some e =>
      (some e, if c.party.isSome then
        s.mapTile c.tile fun t => { t with l1tlb := tlbInsert 512 s.clock e c.asid va t.l1tlb } else s)
    | none => (none, s)

/-- The state after an entry at physical address a has taken the value e: an atomic at its home (R368). -/
def State.updateEntry (s : State) (a : Nat) (e : Word) : State := (s.store none a (leBytes 8 e.toNat)).atomicHome a true

/-- The state after a walk has failed for a party: a malformed entry or poison is counted once for each walk (R365, R370,
R388). -/
def State.walkFailed (s : State) (c : Ctx) (va : Word) (poisoned : Bool) : State :=
  let s := s.count (dieOf c.tile) (if poisoned then .poisonuse else .badpte)
  match c.who with
  | .strand k => s.mapStrand k fun x => { x with walks := x.walks ++ [(va.toNat / 4096, poisoned)] }
  | .cell _ n => if n = 64 then s else { s with walks := s.walks ++ [(c.tile, c.asid, va.toNat / 4096, poisoned)] }
  | _ => s

/-- The state in which the failed walks of a tile's cells are over: later misses walk again (R370). -/
def State.endWalks (s : State) (t : Nat) : State :=
  if s.walks.isEmpty then s else { s with walks := s.walks.filter fun w => w.1 != t }

/-- The failed walk with which a miss merges, and whether it met poison: one of the strand's instruction under way, or one under the
same ASID of the tile's cells in this cycle (R370; log 109). -/
def State.merged (s : State) (c : Ctx) (va : Word) : Option Bool :=
  match c.who with
  | .strand k => ((s.strand k).walks.find? fun w => w.1 == va.toNat / 4096).map (·.2)
  | .cell _ n => if n = 64 then none
    else (s.walks.find? fun w => w.1 == c.tile && w.2.1 == c.asid && w.2.2.1 == va.toNat / 4096).map (·.2.2.2)
  | _ => none

/-- The copies in the die's L2 through which a walk reads its entries (R370). -/
def State.walkFills (s : State) (c : Ctx) (path : List Nat) : State :=
  path.foldl (fun s a => s.fill (.l2 (dieOf c.tile)) a false) s

/-- A leaf read at a that permits an access: A is set by an atomic at the entry's home, and then the entry is installed. A fetch,
which no reservation holds up, uses an entry that cannot be written now without installing it (R287, R367 to R370; log 111). -/
def State.takeLeaf (s : State) (c : Ctx) (va e : Word) (a : Nat) (kind : AccKind) : Tr × State :=
  if e.getLsbD 7 then
    let ent := tlbEntry c.asid va e a
    (ent.result va, s.installTlb c va ent)
  else
    let e' := e ||| 0x80
    let ent := tlbEntry c.asid va e' a
    match s.gate c.bind a true true with
    | .open_ => (ent.result va, (s.updateEntry a e').installTlb c va ent)
    | .snoop l => (.hold, s.sendSnoops l)
    | g =>
      if kind = .fetch then (ent.result va, s)
      else if g = .conflict then (.fail 0x0B, s)
      else (.hold, s.hold c a g)

/-- A translation by a walk, whose entries come through the die's L2 (R364 to R370, R389). -/
def State.translateFresh (s : State) (c : Ctx) (va : Word) (kind : AccKind) : Tr × State :=
  match s.merged c va with
  | some poisoned => (.fail (if poisoned then 0x18 else pageFault kind), s)
  | none =>
    let w := s.walk c va kind
    match s.walkReads c va w.2 with
    | .trap t s => (.fail t.cause, s)
    | .wait s => (.hold, s)
    | .ok _ s => match w.1 with
      | .held a =>
        match s.walkGate c.bind a kind with
        | .conflict => (.fail 0x0B, s)
        | g => (.hold, s.hold c a g)
      | .leaf e a =>
        let s := s.walkFills c w.2
        if leafPermits e kind c.sup then s.takeLeaf c va e a kind else (.fail (pageFault kind), s)
      | .fault false => (.fail (pageFault kind), s.walkFills c w.2)
      | .fault true => (.fail (pageFault kind), (s.walkFills c w.2).walkFailed c va false)
      | .violation => (.fail 0x07, s.walkFills c w.2)
      | .poisoned => (.fail 0x18, (s.walkFills c w.2).walkFailed c va true)

/-! ## Held translations (R171, R198, R274; log 112) -/

/-- The translations that a party holds: a strand for the elements or the row at which its instruction resumes, a cell for the
slot that its load's owner has resumed. -/
def State.keptOf (s : State) (c : Ctx) : List TlbEnt :=
  match c.who with
  | .strand k => (s.strand k).kept.map (·.2)
  | w => (s.kept.filter fun x => x.1 == w).map (·.2)

/-- The state in which a cell, or any party but a strand, holds a translation. -/
def State.keep (s : State) (w : Asker) (e : TlbEnt) : State :=
  if s.kept.contains (w, e) then s else { s with kept := s.kept ++ [(w, e)] }

/-- The translations that a party holds, with f applied to each. -/
def State.mapKept (s : State) (c : Ctx) (f : TlbEnt → TlbEnt) : State :=
  match c.who with
  | .strand k =>
    if (s.strand k).kept.isEmpty then s else s.mapStrand k fun x => { x with kept := x.kept.map fun y => (y.1, f y.2) }
  | w => { s with kept := s.kept.map fun x => if x.1 = w then (w, f x.2) else x }

/-- The translation of a virtual address: through one that the party holds; off when ROOT is 0 (R363); through an entry that is present; or by a walk. -/
def State.translate (s : State) (c : Ctx) (va : Word) (kind : AccKind) : Tr × State :=
  if field va 57 7 ≠ 0 then (.fail (pageFault kind), s)
  else if c.root = 0 then (if va.toNat < 2 ^ 52 then (.ok va.toNat false none, s) else (.fail (pageFault kind), s))
  else match (s.keptOf c).find? fun x => x.serves c.asid va with
  | some ent => (if leafPermits ent.pte kind c.sup then ent.result va else .fail (pageFault kind), s)
  | none => match s.lookupTlb c va with
    | (none, s) => s.translateFresh c va kind
    | (some ent, s) => if leafPermits ent.pte kind c.sup then (ent.result va, s) else (.fail (pageFault kind), s)

/-! ## The dirty bit (R368) -/

/-- The state without a translation in the buffers of tile t. -/
def State.discardTlb (s : State) (t : Nat) (e : TlbEnt) : State :=
  s.mapTile t fun y => { y with tlb := y.tlb.filter fun x => x != e, l1tlb := y.l1tlb.filter fun x => x != e }

/-- Whether the first store through an entry may set D: the entry in memory can be written and is as the walk read it. If it is
not, the translation is discarded, and the access walks again; but one that is held serves until its element is performed (R171,
log 112). -/
def State.dirtyReady (s : State) (c : Ctx) (va : Word) (e : TlbEnt) : Res Unit :=
  (s.pass c va e.at_ (s.gate c.bind e.at_ true true)).bind fun _ s =>
    if s.load64 e.at_ = e.pte || (s.keptOf c).contains e then .ok () s
    else .wait (s.discardTlb c.tile e)

/-- The state after a store through an entry has set D, in memory and in the buffers, by a compare-and-swap that expects the entry
as the walk read it (R368). -/
def State.setDirty (s : State) (c : Ctx) (e : TlbEnt) : State :=
  if s.load64 e.at_ ≠ e.pte then s else
  let e' : TlbEnt := { e with pte := e.pte ||| 0x100 }
  let f (x : TlbEnt) : TlbEnt := if x = e then e' else x
  ((s.updateEntry e.at_ e'.pte).mapKept c f).mapTile c.tile fun t => { t with tlb := t.tlb.map f, l1tlb := t.l1tlb.map f }

/-! ## The checked access -/

/-- How an access is made: a plain one; an atomic at the home or the scratchpad; LR or SC, which no scratchpad takes (R55,
R203, R204). -/
inductive How where
  | plain | atomic | linked
deriving DecidableEq, Repr

/-- What a checked access is granted: the stored address of its first byte, its place, whether it is uncached, the translation
entry it goes through, and the one whose D a store performed through it sets. -/
structure Grant where
  key : Nat
  place : Place
  uncached : Bool
  ent : Option TlbEnt
  mark : Option TlbEnt
deriving DecidableEq, Repr

/-- The entry whose D a store sets: one that has it clear (R368). -/
def markOf (kind : AccKind) (ent : Option TlbEnt) : Option TlbEnt :=
  if kind = .store then ent.filter fun e => !e.pte.getLsbD 8 else none

/-- Whether a granted access leaves its module or crosses to a home on another memory-side die (R389). -/
def Grant.leaves (g : Grant) (t : Nat) : Bool :=
  g.place.leaves t

/-- The state once an access of c to a line is granted: the query that it sent has been answered, and a later access may send
another. A strand's queries are forgotten as its instruction retires (R223, R394). -/
def State.answered (s : State) (c : Ctx) (key : Nat) : State :=
  match c.who with
  | .strand _ => s
  | w => if s.asked.isEmpty then s else { s with asked := s.asked.filter fun x => !(x.1 == w && x.2.2 == lineOf key) }

/-- What stands before a translated access that may be made: the gate of its line, and for a first store the setting of D
(R137, R287, R368, R391). An atomic, LR among them, counts as a write where it meets a reservation (R203, R287). -/
def State.admitted (s : State) (c : Ctx) (va : Word) (p : Place) (kind : AccKind) (how : How) (ent : Option TlbEnt) : Res Unit :=
  (if p.coherent then s.pass c va p.key (s.gate c.bind p.key (kind == .store || how != .plain) (how != .plain))
    else .ok () s).bind fun _ s =>
  (match markOf kind ent with
    | some e => s.dirtyReady c va e
    | none => .ok () s).bind fun _ s =>
  match c.party with
  | some k => s.awaitLost k c.who (p.leaves c.tile)
  | none => .ok () s

/-- The checks of an access of n bytes within one line, after alignment: translation, Access Violation, reservation,
back-invalidation (R114, R136, R137, R347, R387, R391). -/
def State.check (s : State) (c : Ctx) (va : Word) (kind : AccKind) (how : How) : Res Grant :=
  match s.translate c va kind with
  | (.fail cause, s) => .trap (Trap.sync cause va) s
  | (.hold, s) => .wait s
  | (.ok pa unc ent, s) =>
    let p := s.resolveAlias (placeOf c.tile pa)
    if !s.mayReach c.tile p || (kind == .store && s.isFrozen p) || (p.scratch && how == .linked) then
      .trap (Trap.sync 0x07 va) s
    else match s.admitted c va p kind how ent with
      | .ok _ s => .ok { key := p.key, place := p, uncached := unc, ent := ent, mark := markOf kind ent } (s.answered c p.key)
      | .trap t s => .trap t s
      | .wait s => .wait s

/-- The state after the store that a grant is for has set D where it is the first through its translation (R368). -/
def State.commit (s : State) (c : Ctx) (g : Grant) : State :=
  match g.mark with
  | some e => s.setDirty c e
  | none => s

/-- The timeout that a strand's own access meets, if its response is the one that is lost: whether the request is performed all the
same. -/
def State.timeoutFor (s : State) (c : Ctx) (g : Grant) : Option (Nat × Bool) :=
  match c.party with
  | some k => if g.leaves c.tile then (s.lostFor k c.who).map fun b => (k, b) else none
  | none => none

/-- The directory's record of an access: a strand's goes through its tile's L1D, unless the page is uncached; every other
party's is performed at the home (R365, R391; log 9). -/
def State.recordAccess (s : State) (c : Ctx) (g : Grant) (write : Bool) : State :=
  if !g.place.coherent then s
  else if g.uncached || c.party.isNone then s.atHome g.key write
  else s.fill (.l1d c.tile) g.key write

/-- Mem.Read(a, n) of R114 for a scalar access, n at most 8 or 64. The alignment is checked before anything else, also where the
address is one of the control space (R136; log 32). -/
def State.memRead (s : State) (c : Ctx) (va : Word) (n : Nat) : Res Nat :=
  if va.toNat % n ≠ 0 then .trap (Trap.sync 0x03 va) s else
  (s.check c va .load .plain).bind fun g s =>
    match s.timeoutFor c g with
    | some (k, _) => .ok 0 (s.timeOut k va)
    | none =>
      if s.isPoisoned g.key n then .trap (Trap.sync 0x18 va) (s.usePoison c.tile g.key)
      else .ok (s.load g.key n) (s.recordAccess c g false)

/-- The bytes written where a checked access was granted, with all that a write does (R27, R368, R389). -/
def State.perform (s : State) (c : Ctx) (g : Grant) (va : Word) (bs : List Byte) : State :=
  match s.timeoutFor c g with
  | some (k, true) => (((s.commit c g).recordAccess c g true).store (some c.who) g.key bs).timeOut k va
  | some (k, false) => s.timeOut k va
  | none => ((s.commit c g).recordAccess c g true).store (some c.who) g.key bs

/-- Mem.Write(a, n, x) of R114 for a scalar access, n at most 8. -/
def State.memWrite (s : State) (c : Ctx) (va : Word) (n x : Nat) : Res Unit :=
  if va.toNat % n ≠ 0 then .trap (Trap.sync 0x03 va) s else
  (s.check c va .store .plain).bind fun g s => .ok () (s.perform c g va (leBytes n x))

/-- The eight doublewords of an aligned 64-byte record (R212, R222, R228, R230). One whose read times out is 0, which R389 gives a load's
destination, and the instruction goes on (DESIGN CHOICE, log 110). -/
def State.readRecord (s : State) (c : Ctx) (va : Word) : Res (Vector Word 8) :=
  let rec go : Nat → State → Vector Word 8 → Res (Vector Word 8)
    | 0, s, acc => .ok acc s
    | n + 1, s, acc =>
      (s.memRead c (va + BitVec.ofNat 64 (8 * (7 - n))) 8).bind fun w s =>
        go n s (acc.setIfInBounds (7 - n) (BitVec.ofNat 64 w))
  go 8 s (Vector.replicate 8 0)

/-- The state after an atomic has reached its home: every cached copy of a line is gone (R204, R396). -/
def State.atomicAt (s : State) (g : Grant) (write : Bool) : State :=
  if g.place.coherent then s.atomicHome g.key write else s

/-- An atomic on the n-byte word at va (R203 to R205): f gives the new value, or none where nothing is written. The
result is the old value, or none for a request that timed out (R389); at the home, idle is what a request that writes nothing
does besides. -/
def State.atomic (s : State) (c : Ctx) (va : Word) (n : Nat) (f : Nat → Option Nat) (idle : State → State := id) :
    Res (Option Nat) :=
  if va.toNat % n ≠ 0 then .trap (Trap.sync 0x03 va) s else
  (s.check c va .store .atomic).bind fun g s =>
    if s.isPoisoned g.key n then .trap (Trap.sync 0x18 va) (s.usePoison c.tile g.key)
    else
      let old := s.load g.key n
      let done : State := match f old with
        | some y => ((s.commit c g).atomicAt g true).store (some c.who) g.key (leBytes n y)
        | none => idle (s.atomicAt g false)
      match s.timeoutFor c g with
      | some (k, true) => .ok none (done.timeOut k va)
      | some (k, false) => .ok none (s.timeOut k va)
      | none => .ok (some old) done

/-! ## The next word of a strand, and strands that act in one cycle (R20) -/

/-- The word at an address of strand k as far as it can be read without a walk's effects, changing nothing. -/
def State.wordFrom (s : State) (k : Nat) (pc : Word) : Option IWord :=
  let c := s.ctxOf k
  let ent : Option TlbEnt := match (s.lookupTlb c pc).1 with
    | some e => some e
    | none => match (s.walk c pc .fetch).1 with
      | .leaf e a => some (tlbEntry c.asid pc e a)
      | _ => none
  (if c.root = 0 then some pc.toNat else ent.map fun e => e.pa + (pc.toNat - e.va)).map fun pa =>
    BitVec.ofNat 32 (s.load (s.resolveAlias (placeOf c.tile pa)).key 4)

/-- The word at strand k's pc. -/
def State.wordAt (s : State) (k : Nat) : Option IWord := s.wordFrom k (s.strand k).pc

/-- The cycle count of strand k's die (R234). -/
def State.cyclesOf (s : State) (k : Nat) : Nat := (s.die (dieOfStrand k)).cycles / 1000

/-- The strands that have issued in the present cycle of their dies. -/
def State.issuedNow (s : State) : List Nat := (s.issued.filter fun e => e.2 == s.cyclesOf e.1).map (·.1)

/-- Whether strand k may issue in a cycle in which the given strands have: at most two strands of a tile do, each once (R20). -/
def mayIssue (used : List Nat) (k : Nat) : Bool :=
  !used.contains k && decide ((used.filter fun j => tileOf j == tileOf k).length < 2)

/-- The nanoseconds that pass before a move. -/
def Move.wait : Move → Nat
  | .issue _ n | .event _ n | .engRead _ _ _ n | .engHold _ n | .engUnit _ _ n | .outside _ n => n

/-- A move with another wait before it. -/
def Move.withWait (m : Move) (n : Nat) : Move :=
  match m with
  | .issue k _ => .issue k n
  | .event i _ => .event i n
  | .engRead c a k _ => .engRead c a k n
  | .engHold c _ => .engHold c n
  | .engUnit c a _ => .engUnit c a n
  | .outside q _ => .outside q n

/-- Of a list of moves, of which t nanoseconds have passed, those that come in the present cycle of die d, whose counter stands at c and
goes by f in a nanosecond; used are the strands that have issued in it. A strand that may not issue in it begins the next one. -/
def inCycle (d c f : Nat) : Nat → List Nat → List Move → List Move
  | _, _, [] => []
  | t, used, m :: r =>
    let t := t + m.wait
    if (c + t * f) / 1000 ≠ c / 1000 then []
    else match m with
      | .issue k _ =>
        if dieOfStrand k ≠ d then m :: inCycle d c f t used r
        else if mayIssue used k then m :: inCycle d c f t (k :: used) r else []
      | _ => m :: inCycle d c f t used r

/-- The moves of the schedule that come in the present cycle of die d. -/
def State.sameCycle (s : State) (d : Nat) : List Move := inCycle d (s.die d).cycles (s.mdie d).freq.toNat 0 s.issuedNow s.plan

/-- Whether a strand waits in SETVL for a lane group. -/
def Strand.isStalled (x : Strand) : Bool :=
  match x.run with
  | .stalled _ _ _ => true
  | _ => false

/-- Whether a move has strand j make an allocation: it issues an instruction of the kind, or, where retries count, it is stalled in SETVL
and tries again. -/
def State.allocates (s : State) (same : IWord → Bool) (retries : Bool) (j : Nat) : Move → Bool
  | .issue k _ => k == j && (s.strand j).run == .running && (s.wordAt j).any same
  | .event (.setvlRetry k) _ => retries && k == j && (s.strand j).isStalled
  | _ => false

/-- The move, to come in this cycle, of the lowest-numbered strand of strand k's tile that makes an allocation of the kind, SETVL or ACCON,
before strand k: one with a lower number. Allocations take strands that arrive together in ascending order (R20, R33, R188). -/
def State.before (s : State) (k : Nat) (same : IWord → Bool) (retries : Bool) : Option Move :=
  ((List.range (k % 4)).map fun i => k - k % 4 + i).findSome? fun j => (s.sameCycle (dieOfStrand k)).find? (s.allocates same retries j)

/-- A list of moves without a move of it, whose wait passes before the next one. -/
def takeOut (m : Move) : List Move → List Move
  | [] => []
  | x :: r => if x = m then (match r with | y :: l => y.withWait (m.wait + y.wait) :: l | [] => []) else x :: takeOut m r

/-- The state in which move m comes first, and then the issue of the strand whose turn it was. -/
def State.yieldTo (s : State) (m : Move) : State :=
  { s with plan := m.withWait 0 :: .issue s.cur 0 :: takeOut m s.plan, issued := s.issued.filter fun e => e.1 != s.cur }

/-- AtomicOr(a, x) of R114. -/
def State.atomicOr (s : State) (c : Ctx) (va : Word) (x : Word) : Res Unit :=
  (s.atomic c va 8 fun old => some ((BitVec.ofNat 64 old ||| x).toNat)).bind fun _ s => .ok () s

/-- Decrement(c) of R36: a counter at zero is left alone, and counted where that is found. -/
def State.decrement (s : State) (c : Ctx) (va : Word) : Res Unit :=
  (s.atomic c va 8 (fun old => if old % 2 ^ 32 = 0 then none else some (old - 1))
    fun s => s.count (dieOf c.tile) .underflow).bind fun _ s => .ok () s

end Sys2Proof.Machine
end

