-- ==== Sys2Proof/Machine/CellTokens.lean ====
section
/-!
DEFINITION. The memory operations that a cell has fired: where their tokens go once they are performed (R261), and what is left
when a firing is undone (R271).
-/

namespace Sys2Proof.Machine

/-- The operation codes of LD, ST, AMOADD and SINK (R259). -/
def opLD : Nat := 0x27
/-- ST. -/
def opST : Nat := 0x28
/-- AMOADD. -/
def opAMOADD : Nat := 0x29
/-- SINK. -/
def opSINK : Nat := 0x2A

/-- Whether an operation accesses memory (R261). -/
def isMemOp (op : Nat) : Bool := op == opLD || op == opST || op == opAMOADD

/-- The entries of output channel n that are taken: its tokens, those reserved, and those of tokens that wait behind a
reserved one. A store's token takes none before it is enqueued (R256, R261). -/
def Cell.used (c : Cell) (n : Nat) : Nat :=
  (c.outq.getD n []).length + (c.ops.filter fun o => o.chan == some n && o.op.toNat != opST).length

/-! ## Delivering the tokens of performed operations (R261) -/

/-- Whether the token of a performed operation may be enqueued now: the tokens of memory operations in the order in which they
fired, a store's when an entry is free, and a token of another operation behind those that its channel waits for. before lists
the operations ahead of it. -/
def Cell.deliverable (c : Cell) (before : List CellOp) (o : CellOp) : Bool :=
  match o.chan with
  | none => true
  | some ch =>
    if o.op = 0 then !before.any fun b => b.chan == some ch && b.op.toNat != opST
    else !(before.any fun b => b.op != 0) && (o.op.toNat != opST || decide (c.used ch < 4))

/-- The first performed operation whose token may be enqueued, with those before and after it. -/
def Cell.nextDelivery (c : Cell) : List CellOp → List CellOp → Option (List CellOp × CellOp × List CellOp)
  | _, [] => none
  | before, o :: rest =>
    if o.done && c.deliverable before o then some (before, o, rest) else Cell.nextDelivery c (before ++ [o]) rest

/-- Every token that may be enqueued is, in order. fuel bounds their number. -/
def Cell.flush (c : Cell) : Nat → Cell
  | 0 => c
  | fuel + 1 =>
    match c.nextDelivery [] c.ops with
    | none => c
    | some (before, o, rest) =>
      let q := match o.chan with
        | some ch => c.outq.setIfInBounds ch (c.outq.getD ch [] ++ [{ vals := o.data, tag := o.tag }])
        | none => c.outq
      Cell.flush { c with ops := before ++ rest, outq := q } fuel

/-- The cell with every token enqueued that can be. -/
def Cell.settle (c : Cell) : Cell := c.flush c.ops.length

/-! ## Undoing a firing (R271) -/

/-- Token t given back to the head of channel n, behind those that firings before its own have given back. Where the channel has filled
up since, it holds more than its four entries until tokens leave it (log 24). -/
def Cell.giveBack (c : Cell) (x : Nat × Token) : Cell :=
  let q := c.inq.getD x.1 []
  let i := c.given.count x.1
  { c with inq := c.inq.setIfInBounds x.1 (q.take i ++ x.2 :: q.drop i), given := x.1 :: c.given }

/-- The cell in which operation i, whose accesses have met an error, has had none of its effects: its tokens are back at the heads
of their channels, its predicate updates undone, its acknowledgement no longer awaited, and no token of it is delivered (R261,
R271; log 24). -/
def Cell.undo (c : Cell) (i : Nat) : Cell :=
  match c.ops[i]? with
  | none => c
  | some o =>
    let c := o.took.foldl Cell.giveBack c
    Cell.settle { c with
      p := Vector.ofFn fun i : Fin 8 => (c.p[i] &&& ~~~o.hit[i]) ||| (o.was[i] &&& o.hit[i])
      acks := if o.op.toNat = opLD then c.acks else c.acks - 1
      ops := c.ops.eraseIdx i }

end Sys2Proof.Machine
end

