-- ==== Sys2Proof/Machine/Fabric.lean ====
section
/-!
DEFINITION. What a fabric load leaves behind: releases of ports (R224), drained loads (R263), the fault record and the
head snapshot (R270), the accesses of a cell's fired operations (R261), and sealing (R274).
-/

namespace Sys2Proof.Machine

/-! ## Ports and their reservations -/

/-- Whether a port's stream writes to memory (R221). -/
def Port.dirOut (p : Port) : Bool := p.desc[4].getLsbD 61

/-- The state without the range reservation entries of binding b (R393). -/
def State.dropEntries (s : State) (b : Nat) : State :=
  { s with mdies := s.mdies.map fun m => { m with ranges := m.ranges.filter fun e => e.2.bind != b } }

/-- The first part of the release of port p of tile t (R224): its reservation dropped, the watch entries that its writes touch
triggered once each (R27). -/
def State.startRelease (s : State) (t p : Nat) : State :=
  let x := (s.tile t).ports.getD p Port.fresh
  let s := s.dropEntries x.bind
  let s := match x.written.filter fun w => homedHere w.1 with
    | [] => s
    | l => s.sendTriggers (some (.stream x.bind)) l
  s.mapTile t fun y => { y with ports := y.ports.setIfInBounds p { x with written := [] } }

/-- The release of port p of tile t, with the port unbound (R224). -/
def State.releasePort (s : State) (t p : Nat) : State :=
  (s.startRelease t p).mapTile t fun y => { y with ports := y.ports.setIfInBounds p Port.fresh }

/-- The ports of its tile that strand k has bound. -/
def State.portsOf (s : State) (k : Nat) : List Nat :=
  (List.range 16).filter fun p =>
    let x := (s.tile (tileOf k)).ports.getD p Port.fresh
    x.st != .unbound && x.strand == k

/-- Every port that strand k bound, released (R40, R242). -/
def State.releaseStreams (s : State) (k : Nat) : State :=
  (s.portsOf k).foldl (fun s p => s.releasePort (tileOf k) p) s

/-! ## Loads -/

/-- Cell n of a load. -/
def Load.cell (l : Load) (n : Nat) : Cell := l.cells.find Cell.fresh n

/-- The load with cell n replaced. -/
def Load.setCell (l : Load) (n : Nat) (c : Cell) : Load := { l with cells := l.cells.put n c }

/-- The OR of the flags of every cell lane (R93). -/
def Load.flags (l : Load) : Flags := l.cells.foldl (fun f c => c.2.flags.foldl (· ||| ·) f) 0

/-- Whether port p of a load is one of its write ports (R263). -/
def Load.isWritePort (l : Load) (p : Nat) : Bool := l.portMask.getLsbD p && l.dirMask.getLsbD p

/-- The load is drained (R263); a sealed load counts as drained (R274). -/
def Load.drained (l : Load) : Bool :=
  l.sealed ||
  ((l.sinkMask != 0 || (l.portMask &&& l.dirMask) != 0) &&
   ((List.range 64).all fun n => !l.sinkMask.getLsbD n || ((l.cell n).sink != .none && (l.cell n).acks == 0)) &&
   ((List.range 16).all fun p => !l.isWritePort p || l.ends.getD p .none != .none))

/-- Some sink of the load ended with an error end-of-stream, or the load was sealed (R40, R263, R274). -/
def Load.eeos (l : Load) : Bool :=
  l.sealed ||
  ((List.range 64).any fun n => l.sinkMask.getLsbD n && (l.cell n).sink == .eeos) ||
  ((List.range 16).any fun p => l.isWritePort p && l.ends.getD p .none == .eeos)

/-- The context of the accesses of cell n of a load: its owner's translation, at user level (R362, log 13). -/
def State.cellCtx (s : State) (t : Nat) (l : Load) (n : Nat) : Ctx :=
  { tile := t, root := (s.strand l.owner).root, asid := (s.strand l.owner).asid, sup := false, party := none, bind := 0,
    who := .cell l.id n }

/-- The context of the Trellis's own accesses for a load: its records and spill rings, under a number that no cell has. -/
def State.loadCtx (s : State) (t : Nat) (l : Load) : Ctx := s.cellCtx t l 64

/-- Whether every access that the cells of a load have fired is performed (R261, R289). -/
def Load.performed (l : Load) : Bool := l.cells.all fun e => e.2.ops.all (·.done)

/-- The loads on other tiles than t that name a save area under a page table, with their tiles: the records and rings of two loads that
share one have no defined contents (R343). -/
def State.sharers (s : State) (t : Nat) (root : BitVec 40) (save : Word) : List (Nat × Load) :=
  s.tiles.flatMap fun e =>
    if e.1 = t then []
    else ((e.2.active.toList ++ e.2.shadow.toList).filter fun y => y.save == save && (s.strand y.owner).root == root).map
      fun y => (e.1, y)

/-- Whether a load on another tile names the save area of this one (R343). -/
def State.sharesSave (s : State) (t : Nat) (l : Load) : Bool := !(s.sharers t (s.strand l.owner).root l.save).isEmpty

/-- n doublewords with free values. -/
def State.freeWords : Nat → State → List Nat × State
  | 0, s => ([], s)
  | n + 1, s => let r := State.freeWords n s.free.2; (s.free.1.toNat :: r.1, r.2)

/-- Words of a load's record or rings, or free values where their contents are not defined (R343; log 96). -/
def State.defined (s : State) (t : Nat) (l : Load) (w : List Nat) : List Nat × State :=
  if s.sharesSave t l then State.freeWords w.length s else (w, s)

/-! ## The fault record (R270) -/

/-- Word 0 of a fault record. -/
def Report.word0 (r : Report) (st strays : Nat) : Word :=
  BitVec.ofNat 64 (r.cause.toNat <<< 56 ||| st <<< 54 ||| r.cell <<< 48 ||| r.slot <<< 44 ||| r.lanes.toNat <<< 36 |||
    r.port <<< 32 ||| r.unit <<< 30 ||| r.chan <<< 27 ||| min strays 0xFFFF)

/-- The snapshot byte of a channel: spilled, head tag, occupancy (R270). -/
def snapByte (q : List Token) (spilled : Bool) : Nat :=
  (if spilled then 0x80 else 0) + (match q with | [] => 0 | x :: _ => 16 * x.tag.toNat) + min q.length 7

/-- The head snapshot of one cell as a doubleword: byte k is channel k (R270). -/
def Load.snapWord (l : Load) (n : Nat) : Nat :=
  let c := l.cell n
  leNat ((List.range 8).map fun k =>
    BitVec.ofNat 8 (if k < 4 then snapByte (c.inq.getD k []) (((l.spill.find (0, 0) (8 * n + k)).2 != 0))
      else snapByte (c.outq.getD (k - 4) []) false))

/-- Doublewords written as stores: all of them, or none when one would fail or has to wait. -/
def State.writeWords (s : State) (c : Ctx) (words : List (Word × Nat)) : Res Unit :=
  (forEach words (fun w s => (s.check c w.1 .store .plain).bind fun _ s => .ok () s) s).bind fun _ s =>
    forEach words (fun w s => s.memWrite c w.1 8 w.2) s

/-- The two words of the fault record and, for a frozen load, the 64 words of the head snapshot, written as stores under
the owner's ASID (R270). -/
def State.writeReport (s : State) (t : Nat) (l : Load) (r : Report) (st strays : Nat) (snap : Bool) : Res Unit :=
  let d := s.defined t l ([(r.word0 st strays).toNat, r.addr.toNat % 2 ^ 57] ++ if snap then (List.range 64).map l.snapWord else [])
  let at_ (i : Nat) : Word := l.save + BitVec.ofNat 64 (if i < 2 then 8 * i else 48 + 8 * i)
  d.2.writeWords (s.loadCtx t l) (d.1.zipIdx.map fun w => (at_ w.2, w.1))

/-! ## The accesses of a fired memory operation (R261) -/

/-- Whether an access to a stored address leaves the module or the memory-side die joined to tile t's die (R389). -/
def leavesDie (t key : Nat) : Bool :=
  (homedHere key && homeDie key != dieOf t) || decide (0x4_0000_0000_0000 ≤ key)

/-- The kind of access that a memory operation makes. -/
def opKind (op : Nat) : AccKind := if op = opLD then .load else .store

/-- How a memory operation makes its access. -/
def opHow (op : Nat) : How := if op = opAMOADD then .atomic else .plain

/-- The access that a grant gives a lane. -/
def Grant.lane (g : Grant) (va : Word) : LaneAcc := { key := g.key, va := va, ent := g.ent, mark := g.mark }

/-- The gate of a fired access when it is performed: a share that a gang's fault has frozen since, a reservation granted since,
a half that the host has taken since, on its line or on that of the entry whose D it sets (R287, R368, R387, R391); a response of
the owner's that is lost (R389). A first store through an entry that has changed since it was read discards the translation and walks
again, but for one that is held for a resumed slot (R274, R368). -/
def State.regate (s : State) (c : Ctx) (owner : Nat) (o : CellOp) (a : LaneAcc) : Res LaneAcc :=
  let op := o.op.toNat
  let wait (a : LaneAcc) (s : State) : Res LaneAcc :=
    (s.awaitLost owner c.who (leavesDie c.tile a.key)).bind fun _ s => .ok a s
  match a.mark.filter fun e => !o.held && s.load64 e.at_ != e.pte with
  | some e => ((s.discardTlb c.tile e).check c a.va (opKind op) (opHow op)).bind fun g s => wait (g.lane a.va) s
  | none =>
    let p := placeOf c.tile a.key
    if op ≠ opLD ∧ s.isFrozen p then .trap (Trap.sync 0x07 a.va) s
    else (if p.coherent then s.pass c a.va a.key (s.gate c.bind a.key (op != opLD) (op == opAMOADD)) else .ok () s).bind fun _ s =>
      (match a.mark with
        | some e => if s.load64 e.at_ = e.pte then s.pass c a.va e.at_ (s.gate c.bind e.at_ true true) else .ok () s
        | none => .ok () s).bind fun _ s => wait a s

/-- The gates of the lanes of a fired operation, in order: the accesses as they are then made. -/
def State.regateAll (c : Ctx) (owner : Nat) (o : CellOp) : List (Nat × LaneAcc) → State → Res (List (Nat × LaneAcc))
  | [], s => .ok [] s
  | x :: l, s => (s.regate c owner o x.2).bind fun a s => (State.regateAll c owner o l s).bind fun r s => .ok ((x.1, a) :: r) s

/-- The access of one lane performed: the value it gives. A store sets D as it is performed; an atomic on a line of another home is
made as R392 says (R259, R261, R368). -/
def State.performLane (s : State) (c : Ctx) (op : BitVec 6) (a : LaneAcc) (b : BitVec 32) : BitVec 32 × State :=
  let old := s.load a.key 4
  let home (s : State) : State :=
    if !(placeOf 0 a.key).coherent then s
    else if op = 0x29 then s.atomicHome a.key true else s.atHome a.key (op != 0x27)
  let s := match a.mark with
    | some e => s.setDirty c e
    | none => s
  let put (x : Nat) : State := (home s).store (some c.who) a.key (leBytes 4 x)
  if op = 0x27 then (BitVec.ofNat 32 old, home s)
  else if op = 0x28 then (0, put b.toNat)
  else (BitVec.ofNat 32 old, put (old + b.toNat))

/-- The lanes' accesses of a fired operation performed: the values for its token; or a wait; or the trap that freezes the
load, with nothing performed, for poison or a timeout that arrives with the data (R261, R271, R388, R389). -/
def State.performOp (s : State) (t : Nat) (l : Load) (cell : Nat) (o : CellOp) : Res (Vector (BitVec 32) 8) :=
  let c := s.cellCtx t l cell
  ((State.regateAll c l.owner o ((List.range 8).filterMap fun i => (o.acc.getD i none).map fun a => (i, a)) s).after
    (·.endWalks t)).bind fun lanes s =>
  match (if o.op = 0x28 then none else lanes.find? fun x => s.isPoisoned x.2.key 4) with
  | some x => .trap (Trap.sync 0x18 x.2.va) (s.usePoison t x.2.key)
  | none =>
    match if (s.lostFor l.owner c.who).isSome then lanes.find? fun x => leavesDie t x.2.key else none with
    | some x => .trap (Trap.sync 0x19 x.2.va) (s.lostTaken l.owner)
    | none =>
      let r := lanes.foldl (fun (a : Vector (BitVec 32) 8 × State) x =>
        let r := a.2.performLane c o.op x.2 (o.data.getD x.1 0)
        (a.1.setIfInBounds x.1 r.1, r.2)) (Vector.replicate 8 0, s)
      .ok r.1 r.2

/-! ## Sealing (R274) -/

/-- The stray tokens of a load by place code: of its channels, its links and its read-port buffers (R269). -/
def Load.strays (l : Load) : List (Nat × Nat) :=
  let channels := l.cells.flatMap fun e => (List.range 8).map fun k =>
    (8 * e.1 + k, if k < 4 then (e.2.inq.getD k []).length else (e.2.outq.getD (k - 4) []).length)
  let waiting := l.cells.flatMap fun e => e.2.ops.filterMap fun o => o.chan.map fun ch => (8 * e.1 + 4 + ch, 1)
  let links := l.routes.map fun r =>
    ((match r.src with | .cell n ch => 8 * n + 4 + ch | .port p => 512 + p),
     (r.hops.filter fun h => h.slot.isSome).length)
  let ports := (List.range 16).map fun p => (512 + p, if l.isWritePort p then 0 else (l.bufs.getD p []).length)
  let spilled := l.spill.map fun e => (e.1, e.2.2)
  (channels ++ waiting ++ links ++ ports ++ spilled).filter fun x => x.2 != 0

/-- The tokens that a load holds anywhere, those that have reached a write port among them (R270). -/
def Load.tokenCount (l : Load) : Nat :=
  (l.strays.map (·.2)).sum + ((List.range 16).map fun p => if l.isWritePort p then (l.bufs.getD p []).length else 0).sum

/-- A report of no cell, port or channel. -/
def Report.plain (cause : BitVec 8) (unit : Nat) : Report :=
  { cause := cause, frozen := false, cell := 0, slot := 0, lanes := 0, port := 0, unit := unit, chan := 0, addr := 0,
    written := false }

/-- The load with every token gone and every sink at EEOS (R274, steps 3 to 6). -/
def Load.emptied (l : Load) : Load :=
  { l with cells := l.cells.map fun c =>
             (c.1, { c.2 with inq := Vector.replicate 4 [], outq := Vector.replicate 4 [], ops := [], given := [], acks := 0,
                              committed := none, held := false, resumed := false, sink := if l.sinkMask.getLsbD c.1 then .eeos else c.2.sink }),
           routes := l.routes.map fun r =>
             { r with hops := r.hops.map fun h => { h with slot := none } },
           spill := [], bufs := Vector.replicate 16 [],
           ends := l.ends.map fun e => if e = .none then .eeos else e, frozen := false, report := none, sealed := true }

/-- The ports of a sealed load: a read port stops and discards what it holds; a write port ends, and is released where its
SREL has been issued (R224, R274, steps 2 and 6; log 42). -/
def State.sealPorts (s : State) (t id : Nat) : State :=
  (List.range 16).foldl (fun s p =>
    let x := (s.tile t).ports.getD p Port.fresh
    if x.st = .unbound ∨ x.load ≠ id then s
    else if x.dirOut ∧ x.st = .releasing then s.releasePort t p
    else
      let x' := { x with buf := [], pack := [], marker := none, reported := false, ended := true }
      s.mapTile t fun y => { y with ports := y.ports.setIfInBounds p x' }) s

/-- The tile with a load of its planes replaced by l, which has the same number. -/
def Tile.putLoad (y : Tile) (l : Load) : Tile :=
  { y with active := y.active.map fun a => if a.id = l.id then l else a,
           shadow := y.shadow.map fun a => if a.id = l.id then l else a }

/-- The state with a load of tile t replaced by l. -/
def State.putLoad (s : State) (t : Nat) (l : Load) : State := s.mapTile t fun y => y.putLoad l

/-! ## Performing a cell's accesses (R261, R262) -/

/-- The first operation of a cell whose accesses are not performed, with those before and after it. -/
def firstUndone : List CellOp → List CellOp → Option (List CellOp × CellOp × List CellOp)
  | _, [] => none
  | before, o :: rest => if o.done then firstUndone (before ++ [o]) rest else some (before, o, rest)

/-- The cell after an operation is performed: the acknowledgement arrives, and its token is delivered when it may be. -/
def Cell.performed (c : Cell) (before : List CellOp) (o : CellOp) (rest : List CellOp) (v : Vector (BitVec 32) 8) : Cell :=
  let acks := if o.op.toNat = opLD then c.acks else c.acks - 1
  let mid := if o.chan.isNone then [] else [{ o with done := true, data := v }]
  Cell.settle { c with ops := before ++ mid ++ rest, acks := acks }

/-- What the next operation of a cell comes to (R261): done, with the cell after it; a trap, with its number in the order of
firing; or a wait, that for a trigger of its own in a full queue among them (R355). -/
def State.nextOp (s : State) (t : Nat) (l : Load) (cell : Nat) (before : List CellOp) (o : CellOp) (rest : List CellOp) :
    Res Cell :=
  let c := l.cell cell
  let finish (v : Vector (BitVec 32) 8) (s : State) : Res Cell :=
    if s.owes (.cell l.id cell) then
      .wait (s.putLoad t (l.setCell cell { c with ops := before ++ { o with got := some v } :: rest }))
    else .ok (c.performed before o rest v) s
  match o.got with
  | some v => finish v s
  | none => (s.performOp t l cell o).bind finish

/-- Every access that a cell of load id has fired is completed, in the order of firing (R274, step 1); a firing that meets an error
is undone. fuel bounds their number. -/
def State.finishCell (t id n : Nat) : Nat → State → Res Unit
  | 0, s => .ok () s
  | fuel + 1, s =>
    match (s.tile t).load? id with
    | none => .ok () s
    | some l =>
      match firstUndone [] (l.cell n).ops with
      | none => .ok () s
      | some (before, o, rest) =>
        match s.nextOp t l n before o rest with
        | .ok c s => State.finishCell t id n fuel (s.putLoad t (l.setCell n c))
        | .trap _ s => State.finishCell t id n fuel (s.putLoad t (l.setCell n ((l.cell n).undo before.length)))
        | .wait s => .wait s

/-- Every access that the cells of load id have fired is completed (R274, step 1). -/
def State.finishOps (s : State) (t id : Nat) : Res Unit :=
  match (s.tile t).load? id with
  | none => .ok () s
  | some l => forEach l.cells (fun e s => State.finishCell t id e.1 e.2.ops.length s) s

/-- The record of a seal written where the save area can be written; a write that fails its checks is dropped, and one that
has to wait is made later (R274). -/
def State.sealRecord (s : State) (t : Nat) (l : Load) (r : Report) (strays : Nat) : State :=
  match s.writeReport t l r 2 strays false with
  | .ok _ s => s
  | .trap _ s => s
  | .wait s =>
    let c := s.loadCtx t l
    s.mapTile t fun y => { y with records := y.records ++
      [{ load := l.id, root := c.root, asid := c.asid, save := l.save, word0 := r.word0 2 strays, word1 := r.addr }] }

/-- The oldest seal record of a tile that still waits for its save area, tried again (R274). -/
def State.retryRecord (s : State) (t : Nat) : State :=
  match (s.tile t).records with
  | [] => s
  | r :: l =>
    let c : Ctx := { tile := t, root := r.root, asid := r.asid, sup := false, party := none, bind := 0, who := .cell r.load 64 }
    let gone (s : State) : State := s.mapTile t fun y => { y with records := l }
    let w := [r.word0.toNat, r.word1.toNat % 2 ^ 57]
    let d := if !(s.sharers t r.root r.save).isEmpty then State.freeWords 2 s else (w, s)
    match d.2.writeWords c [(r.save, d.1.getD 0 0), (r.save + 8, d.1.getD 1 0)] with
    | .ok _ s => gone s
    | .trap _ s => gone s
    | .wait s => s

/-- The translations that the cells of load id hold let go. -/
def State.dropKept (s : State) (id : Nat) : State :=
  if s.kept.isEmpty then s else
  { s with kept := s.kept.filter fun x => match x.1 with
      | .cell i _ => i != id
      | _ => true }

/-- Load id of tile t, whose outstanding accesses are completed, sealed (R274): its tokens absorbed and counted, its ports stopped,
STATE 2 written where the save area can be written, and its owner's EEOS and flags kept (R93, R235, R270). -/
def State.sealLoad (s : State) (t id : Nat) (r : Report) : State :=
  match (s.tile t).load? id with
  | none => s
  | some l =>
    if l.sealed then s else
    let s := (s.putLoad t l.emptied).dropKept id
    let s := s.sealPorts t l.id
    let s := s.mapStrand l.owner fun x => { x with eeos := true, rflags := x.rflags ||| l.flags }
    s.sealRecord t l r l.tokenCount

/-- The load of tile t's planes that strand k owns, if any: the active one first. -/
def State.ownsActive (s : State) (k : Nat) : Option Load :=
  (s.tile (tileOf k)).active.filter fun l => l.owner == k

/-- The shadow load that strand k owns, if any. -/
def State.ownsShadow (s : State) (k : Nat) : Option Load :=
  (s.tile (tileOf k)).shadow.filter fun l => l.owner == k

/-- The outstanding accesses of strand k's active load completed (R242, R274). -/
def State.finishOwned (s : State) (k : Nat) : Res Unit :=
  match s.ownsActive k with
  | some l => s.finishOps (tileOf k) l.id
  | none => .ok () s

/-- The planes of strand k's tile without its loads (R40, R242, R378). -/
def State.releaseLoads (s : State) (k : Nat) : State :=
  s.mapTile (tileOf k) fun y =>
    { y with active := y.active.filter fun l => l.owner != k, shadow := y.shadow.filter fun l => l.owner != k }

/-- Strand k's fabric load ended fatally: sealed, then released (R242, R385). -/
def State.sealOwned (s : State) (k : Nat) : State :=
  let s := match s.ownsActive k with
    | some l => s.sealLoad (tileOf k) l.id (l.report.getD (Report.plain 0 3))
    | none => s
  s.releaseLoads k

end Sys2Proof.Machine
end

