-- ==== Sys2Proof/Machine/Ops.lean ====
section
/-!
DEFINITION. The named operations that many meanings share: lane groups and accumulators, gangs, the end of a task,
taking a trap (R238) and returning from one (R241), and how an instruction's result becomes a step.
-/

namespace Sys2Proof.Machine

/-! ## Lane groups and accumulators (R20, R58, R93, R184) -/

/-- The lane groups of a tile that its strand i holds, in ascending order. -/
def Tile.groups (t : Tile) (i : Fin 4) : List Nat := (List.range 8).filter fun j => t.latc.getD j none == some i

/-- The lane groups of a tile that no strand holds, in ascending order. -/
def Tile.freeGroups (t : Tile) : List Nat := (List.range 8).filter fun j => t.latc.getD j none == none

/-- The lane groups that strand k holds, in ascending order. -/
def State.groupsOf (s : State) (k : Nat) : List Nat := (s.tile (tileOf k)).groups (subOf k)

/-- The lane group j of strand k released: the flags of its lanes are kept in the retained set and cleared (R93). -/
def State.releaseGroup (s : State) (k j : Nat) : State :=
  let t := s.tile (tileOf k)
  let f := (List.range 4).foldl (fun f i => f ||| t.laneFlags.getD (4 * j + i) 0) 0
  let fl := (List.range 4).foldl (fun v i => v.setIfInBounds (4 * j + i) (0 : Flags)) t.laneFlags
  (s.setTile (tileOf k) { t with latc := t.latc.setIfInBounds j none, laneFlags := fl }).mapStrand k
    fun x => { x with vflags := x.vflags ||| f }

/-- Lane group j taken by strand k: its four lane slices become zero, and hold no poison (R58, R388). -/
def State.takeGroup (s : State) (k j : Nat) : State :=
  let t := s.tile (tileOf k)
  let sl := (List.range 4).foldl (fun v i => v.setIfInBounds (4 * j + i) (0 : Slice)) t.slices
  (s.setTile (tileOf k) { t with latc := t.latc.setIfInBounds j (some (subOf k)), slices := sl }).unpoison
    [(sliceKey (tileOf k) (4 * j), 0x4000)]

/-- Every lane group of strand k released. -/
def State.releaseGroups (s : State) (k : Nat) : State := (s.groupsOf k).foldl (fun s j => s.releaseGroup k j) s

/-- The accumulators that strand k holds: ACCEN of R184. -/
def State.accen (s : State) (k : Nat) : BitVec 8 :=
  (List.range 8).foldl (fun (a : BitVec 8) n =>
    if (s.tile (tileOf k)).accOwner.getD n none = some (subOf k) then a ||| (1 <<< n) else a) 0

/-- Every accumulator of strand k released (R184). -/
def State.releaseAccs (s : State) (k : Nat) : State :=
  s.mapTile (tileOf k) fun t => { t with accOwner := t.accOwner.map fun o => if o = some (subOf k) then none else o }

/-! ## Vector flags (R93) -/

/-- VSTAT.FLAGS of strand k: the retained set and the flags of every held lane. -/
def State.vectorFlags (s : State) (k : Nat) : Flags :=
  (s.groupsOf k).foldl (fun f j => (List.range 4).foldl (fun f i =>
    f ||| (s.tile (tileOf k)).laneFlags.getD (4 * j + i) 0) f) (s.strand k).vflags

/-- A write of VSTAT.FLAGS: the retained set takes the value, and the flags of every held lane are cleared. -/
def State.setVectorFlags (s : State) (k : Nat) (f : Flags) : State :=
  let t := s.tile (tileOf k)
  let fl := (s.groupsOf k).foldl (fun v j =>
    (List.range 4).foldl (fun v i => v.setIfInBounds (4 * j + i) (0 : Flags)) v) t.laneFlags
  (s.setTile (tileOf k) { t with laneFlags := fl }).mapStrand k fun x => { x with vflags := f }

/-! ## Gangs (R229, R387) -/

/-- Whether a strand's task is a member of gang g. -/
def Strand.inGang (x : Strand) (g : Nat) : Bool :=
  match x.task with
  | some t => (t.gang.map (·.id)) == some g
  | none => false

/-- Whether a resume entry is that of gang g. -/
def ResumeEnt.isOf (r : ResumeEnt) (g : Nat) : Bool := r.ctxs.any fun c => (c.gang.map (·.id)) == some g

/-- Whether some task, on a strand or suspended, is still a member of gang g. -/
def State.gangAlive (s : State) (g : Nat) : Bool :=
  (s.strands.any fun e => e.2.inGang g) || s.dies.any fun d => d.resumeq.any fun r => r.isOf g

/-- A frozen share set to zero: its bytes are no longer listed (R387). -/
def State.scrubShare (s : State) (f : FrozenShare) : State :=
  let lo := (Place.cask f.cask (f.share * 0x4_0000)).key
  { s with mem := s.mem.filter fun c => !(decide (lo ≤ c.1) && decide (c.1 < lo + 0x4_0000)) }

/-- When gang g has no member left, the shares that its fatal ends froze are zeroed and writable again (R387). -/
def State.scrubGang (s : State) (g : Nat) : State :=
  if s.gangAlive g then s else
  let s' := (s.frozen.filter fun f => f.gang == g).foldl (fun s f => s.scrubShare f) s
  { s' with frozen := s.frozen.filter fun f => f.gang != g }

/-- The resume entry of gang g, if it has one, behind those of its die's queue once no member is on a strand: it is complete from
then on (R382; log 115). -/
def State.queueGang (s : State) (g : Nat) : State :=
  if s.strands.any fun e => e.2.inGang g then s
  else { s with dies := s.dies.map fun d =>
    { d with resumeq := (d.resumeq.filter fun r => !r.isOf g) ++ d.resumeq.filter fun r => r.isOf g } }

/-- GANG.LEAVE of strand k (R229); nothing for a strand in no gang. -/
def State.leaveGang (s : State) (k : Nat) : State :=
  match (s.strand k).task with
  | some t =>
    match t.gang with
    | some g =>
      (s.mapStrand k fun x => { x with task := some { t with gang := none },
                                       pend := { x.pend with gangAbort := [] } }).queueGang g.id |>.scrubGang g.id
    | none => s
  | none => s

/-- A fatal end of a gang member before its GANG.LEAVE: its tile's share is frozen and every other member has a Gang
Abort pending (R387). -/
def State.abortGang (s : State) (k : Nat) : State :=
  match (s.strand k).task with
  | some t =>
    match t.gang with
    | some g =>
      let abort (p : Pending) : Pending := { p with gangAbort := p.gangAbort ++ [g.member] }
      let onStrand (e : Nat × Strand) : Nat × Strand :=
        (e.1, if e.1 ≠ k ∧ e.2.inGang g.id then { e.2 with pend := abort e.2.pend } else e.2)
      let onSaved (c : SavedCtx) : SavedCtx :=
        if (c.gang.map (·.id)) = some g.id then { c with since := abort c.since } else c
      let onEntry (r : ResumeEnt) : ResumeEnt := { r with ctxs := r.ctxs.map onSaved }
      let onDie (d : Die) : Die := { d with resumeq := d.resumeq.map onEntry }
      let share : FrozenShare := { cask := caskOf (tileOf k), share := tileOf k % 4, gang := g.id }
      { s with frozen := s.frozen ++ [share], strands := s.strands.map onStrand, dies := s.dies.map onDie }
    | none => s
  | none => s

/-! ## What a release waits for (R181, R209, R355) -/

/-- Whether a write of strand k is not yet complete. -/
def State.owesTrigger (s : State) (k : Nat) : Bool := s.owes (.strand k)

/-- Whether strand k has no access outstanding and no write that is not complete. -/
def State.settled (s : State) (k : Nat) : Bool := (s.strand k).outst.isEmpty && !s.owesTrigger k

/-! ## The end of a task (R40, R240, R242) -/

/-- The streams of strand k released at the end of its task: once the triggers of their writes are enqueued (R40, R224, R242, R355; log
69). -/
def State.endStreams (s : State) (k : Nat) : Res Unit :=
  let t := tileOf k
  let mine := s.portsOf k
  let s := mine.foldl (fun s p => s.startRelease t p) s
  if mine.any fun p => s.owes (.stream ((s.tile t).ports.getD p Port.fresh).bind) then .wait s else .ok () (s.releaseStreams k)

/-- The strand set Free: what belonged to its task is gone; a raised pre-emption request stays (R375). -/
def State.setFree (s : State) (k : Nat) : State :=
  s.mapStrand k fun x => { x with run := .free, task := none, resv := none, outst := [], vpi := 0, resume := false,
                                  asked := [], walks := [], kept := [], part := none, partly := 0, begun := none,
                                  engwait := false, reqAt := none,
                                  pend := { Pending.none with preempt := x.pend.preempt } }

/-- The completion address in the task record of strand k; 0 for none (R39, R348). -/
def State.cplAddr (s : State) (k : Nat) : Word :=
  match (s.strand k).task with
  | some t => t.words[2]
  | none => 0

/-- Steps 1 to 3 of TABORT (R242): GANG.LEAVE of a member, which freezes its share (R387), the queue discarded, the
streams released, and the outstanding accesses of the fabric load completed (R274). A wait leaves what has been done, and the
steps are taken again. -/
def State.abortHead (s : State) (k : Nat) : Res Unit :=
  ((((s.abortGang k).leaveGang k).mapStrand k fun x => { x with vpi := 0 }).endStreams k).bind fun _ s => s.finishOwned k

/-- The completion word's value for an aborted task (R242). -/
def abortWord (exit : BitVec 16) : Word := (1 <<< 62) ||| (exit.setWidth 64 <<< 16)

/-- Step 4 of TABORT: the completion write, when there is a completion word; a release, it waits until the strand's earlier accesses
are performed and its writes complete. -/
def State.abortWrite (s : State) (k : Nat) (exit : BitVec 16) : Res Unit :=
  if s.cplAddr k = 0 then .ok () s
  else if !s.settled k then .wait s
  else s.atomicOr (s.ctxOf k) (s.cplAddr k) (abortWord exit)

/-- Step 5 of TABORT: lane groups, accumulators and fabric load released, the strand Free. -/
def State.abortTail (s : State) (k : Nat) : State :=
  (((s.releaseGroups k).releaseAccs k).sealOwned k).setFree k

/-- TABORT in hardware (R240, R416): a completion write that fails its checks is dropped and counted; while a
reservation holds it, the strand stays halted and tries again. -/
def State.abortHard (s : State) (k : Nat) (exit : BitVec 16) : State :=
  match (s.abortHead k).bind fun _ s => s.abortWrite k exit with
  | .ok _ s => s.abortTail k
  | .trap _ s => (s.abortTail k).count (dieOfStrand k) .cpllost
  | .wait s => s.mapStrand k fun x => { x with run := .aborting exit }

/-- A double trap of strand k (R240). -/
def State.doubleTrap (s : State) (k : Nat) : State :=
  (s.count (dieOfStrand k) .dbltrap).abortHard k 0xFFFF

/-! ## Taking a trap and returning from one (R238, R241) -/

/-- The bits that EPC and TVEC show and take (R235). -/
def addrMask : Word := 0x01FF_FFFF_FFFF_FFFC

/-- The strand after trap entry (R238). At every entry the vector queue is empty: R238 lets it drain before a synchronous trap, and
the model takes the same before an asynchronous one (log 16). -/
def Strand.trapped (x : Strand) (t : Trap) : Strand :=
  { x with run := .running, def_ := t.deferred, stepped := t.stepped, cause := t.cause,
           epc := t.epc.getD x.pc, trec := t.addr, tlg := t.tlg, trow := t.row, teng := t.eng,
           ppl := x.pl, pss := x.ss, pl := true, ss := false, ta := true, resv := none, vpi := 0, resume := false,
           asked := [], walks := [], kept := [], part := none, partly := x.partly ||| t.busy, begun := none, engwait := false,
           lost := x.lost.map fun l => (l.1, l.2.filter fun r => !r.1.isStrand), pc := x.tvec }

/-- Strand k takes a trap (R238); with TA = 1 it is a double trap (R240). -/
def State.enterTrapOf (s : State) (k : Nat) (t : Trap) : State :=
  if (s.strand k).ta then s.doubleTrap k else s.setStrand k ((s.strand k).trapped t)

/-- The issuing strand takes a trap. -/
def State.enterTrap (s : State) (t : Trap) : State := s.enterTrapOf s.cur t

/-- Whether the instruction at EPC goes on from counters or from a row or step, and not from its start (R241). -/
def Strand.resumesMidway (x : Strand) : Bool := !x.def_ && (x.tlg.any (fun n => n != 0) || x.trow != 0)

/-- What ERET does to its strand (R241). The instruction at EPC is resumed unless the trap was a deferred one, which resumes none: an
END or an access that was to go on from a step, a row or counters is then run in full (log 100). The errors that an access has met
are pending as soon as it is not to go on (R172). -/
def Strand.returned (x : Strand) : Strand :=
  { x.retired with pl := x.ppl, ss := x.pss, ta := false, pc := x.epc, resume := !x.def_,
                   reqAt := if x.ppl then x.reqAt else none,
                   pend := if x.ppl || x.resumesMidway then x.retired.pend else x.retired.pend.arrived }

/-! ## From a result to a step -/

/-- The step that a result comes to: its trap taken, or the instruction left to run again. -/
def Res.finish (r : Res Unit) : Host.Outcome State Fault Refusal :=
  match r with
  | .ok _ s => .next s
  | .trap t s => .next (s.enterTrap t)
  | .wait s => .next s

/-- The same for strand k, which need not be the one that issues. -/
def Res.finishFor (k : Nat) (r : Res Unit) : Host.Outcome State Fault Refusal :=
  match r with
  | .ok _ s => .next s
  | .trap t s => .next (s.enterTrapOf k t)
  | .wait s => .next s

/-- r, then the instruction retires in sequence. -/
def Res.retire (r : Res Unit) : Res Unit := r.bind fun _ s => .ok () s.retire

/-- Trap(0x02, 0) below supervisor level (R110, R241, R243). -/
def State.needSup (s : State) : Res Unit :=
  if s.me.pl then .ok () s else .trap (Trap.sync 0x02 0) s

/-- The value of r[d] written, and the instruction retired. -/
def State.writeRetire (s : State) (d : Reg) (v : Word) : State := (s.writeG d v).retire

/-- A scalar instruction that always completes: v into g register d, next instruction. -/
def State.setNext (s : State) (d : Reg) (v : Word) : Host.Outcome State Fault Refusal := .next (s.writeRetire d v)

end Sys2Proof.Machine
end

