-- ==== Sys2Proof/Machine/Flags.lean ====
section
/-!
DEFINITION. The sticky flags (R92) and the places where they are raised (R93).
-/

namespace Sys2Proof.Machine

/-- NV, bit 0. -/
def flagNV : Flags := 0x01
/-- DZ, bit 1. -/
def flagDZ : Flags := 0x02
/-- OF, bit 2. -/
def flagOF : Flags := 0x04
/-- UF, bit 3. -/
def flagUF : Flags := 0x08
/-- NX, bit 4. -/
def flagNX : Flags := 0x10
/-- SAT, bit 5. -/
def flagSAT : Flags := 0x20

/-- Flags raised by the scalar floating point of the issuing strand, in STATUS.FFLAGS. -/
def State.raiseScalar (s : State) (f : Flags) : State := s.mapMe fun x => { x with fflags := x.fflags ||| f }

/-- Flags raised by the matrix unit for the issuing strand, in its retained set. -/
def State.raiseRetained (s : State) (f : Flags) : State := s.mapMe fun x => { x with vflags := x.vflags ||| f }

/-- Flags raised in one lane of the issuing strand's tile. -/
def State.raiseLane (s : State) (lane : Nat) (f : Flags) : State :=
  if f = 0 then s else
  s.mapTile s.myTile fun t => { t with laneFlags := t.laneFlags.setIfInBounds lane (t.laneFlags.getD lane 0 ||| f) }

end Sys2Proof.Machine
end

