-- ==== Sys2Proof/Machine/Operands.lean ====
section
/-!
DEFINITION. The operand forms of the instruction words (R106, R107): immediates, displacements, branch offsets, and the
shapes of the scalar instructions over them.
-/

namespace Sys2Proof.Machine

/-- simm of R120: SignExtend(imm, 16). -/
def simm (imm : BitVec 16) : Word := imm.signExtend 64

/-- zimm of R120: ZeroExtend(imm, 16). -/
def zimm (imm : BitVec 16) : Word := imm.setWidth 64

/-- The byte distance of a branch: 4 × SignExtend(off, w) (R107). -/
def branchDist {w : Nat} (off : BitVec w) : Word := off.signExtend 64 <<< 2

/-- The address of the M format: g_a + SignExtend(disp, 16) (R107). -/
def State.dispAddr (s : State) (a : Reg) (disp : BitVec 16) : Word := s.readG a + simm disp

/-- The address of the indexed forms: g_a + g_b (R135). -/
def State.indexAddr (s : State) (a b : Reg) : Word := s.readG a + s.readG b

/-- A register-register instruction that always completes: g_d := f g_a g_b. -/
def State.binary (s : State) (d a b : Reg) (f : Word → Word → Word) : Host.Outcome State Fault Refusal :=
  s.setNext d (f (s.readG a) (s.readG b))

/-- A unary or immediate instruction that always completes: g_d := f g_a. -/
def State.unary (s : State) (d a : Reg) (f : Word → Word) : Host.Outcome State Fault Refusal :=
  s.setNext d (f (s.readG a))

/-- The result of a form that may trap: the value written and the instruction retired, or the trap taken with the
register unchanged. -/
def State.orTrap (s : State) (d : Reg) (v : Option Word) (t : Trap) : Host.Outcome State Fault Refusal :=
  match v with
  | some v => s.setNext d v
  | none => .next (s.enterTrap t)

end Sys2Proof.Machine
end

