-- ==== Sys2Proof/Machine/Atomic.lean ====
section
/-!
DEFINITION. LR, SC and AMO, major 0x1F: R112, R202 to R207.
-/

namespace Sys2Proof.Machine

/-! ## Scopes (R235, R236) -/

/-- Whether tile t is a member of a scope that is resolved at tile m: REL 1 to 4 name the own ranges (R236). -/
def Scope.hasTile (c : Scope) (m t : Nat) : Bool :=
  match c.rel.toNat with
  | 0 => c.tiles.getLsbD t
  | 1 => t == m
  | 2 => caskOf t == caskOf m
  | 3 => dieOf t == dieOf m
  | _ => true

/-- Scope Error unless SMk of the issuing strand includes its tile (R203, R209); the address field is a. -/
def State.needScope (s : State) (k : BitVec 4) (a : Word) : Res Unit :=
  if (s.me.scopes.getD k.toNat Scope.empty).hasTile s.myTile s.myTile then .ok () s
  else .trap (Trap.sync 0x0C a) s


/-- A release waits until the strand's earlier element accesses and trains have been performed, and its writes are complete
(R181, R209, R290, R355). -/
def State.needPerformed (s : State) : Res Unit :=
  if s.settled s.cur then .ok () s else .wait s

/-! ## The shared form (R203) -/

/-- The bytes of an atomic: 8 for D, 4 for W (R112). -/
def amoBytes (q : AmoQual) : Nat := if q.dbl then 8 else 4

/-- The address check and the scope check of R203, and the wait of a release. -/
def State.amoChecks (s : State) (q : AmoQual) (a : Word) : Res Unit :=
  if a.toNat % (amoBytes q) ≠ 0 then .trap (Trap.sync 0x03 a) s
  else (if q.ord = .none then .ok () s else s.needScope q.scope a).bind fun _ s =>
    if q.ord = .rl ∨ q.ord = .aqrl then s.needPerformed else .ok () s

/-- A value of the form's width as g_d receives it: sign-extended for W (R205, R206). -/
def amoResult (q : AmoQual) (x : Nat) : Word := if q.dbl then BitVec.ofNat 64 x else sext (BitVec.ofNat 32 x)

/-- AMO of R205: the old value x becomes f x g_b g_d, at the form's width, or stays where f gives none; g_d := x. -/
def State.amo (s : State) (q : AmoQual) (d a b : Reg) (f : {w : Nat} → BitVec w → BitVec w → BitVec w → Option (BitVec w)) :
    Res Unit :=
  let va := s.readG a
  let y := s.readG b
  let e := s.readG d
  (s.amoChecks q va).bind fun _ s =>
    (s.atomic s.ctx va (amoBytes q) fun old =>
      if q.dbl then (f (BitVec.ofNat 64 old) y e).map BitVec.toNat
      else (f (BitVec.ofNat 32 old) (lo32 y) (lo32 e)).map BitVec.toNat).bind fun old s =>
        .ok () (s.writeRetire d (match old with | some x => amoResult q x | none => 0))

/-! ## LR and SC (R206, R207, R395) -/

/-- LR: the word loaded, and the strand's reservation set to its line, address and size (R206). -/
def State.loadReserve (s : State) (q : AmoQual) (d a : Reg) : Res Unit :=
  let va := s.readG a
  (s.amoChecks q va).bind fun _ s =>
    (s.check s.ctx va .load .linked).bind fun g s =>
      match s.timeoutFor s.ctx g with
      | some (k, _) => .ok () ((s.timeOut k va).writeRetire d 0)
      | none =>
        if s.isPoisoned g.key (amoBytes q) then .trap (Trap.sync 0x18 va) (s.usePoison s.myTile g.key)
        else
          let v := amoResult q (s.load g.key (amoBytes q))
          let r : LoadResv := { addr := va, dbl := q.dbl, pa := g.key, since := s.cyclesOf s.cur }
          .ok () (((s.atomicAt g false).mapMe fun x => { x with resv := some r }).writeRetire d v)

/-- Whether a reservation is for this address and size, and not yet 4,096 cycles old (R207). -/
def LoadResv.holds (r : LoadResv) (va : Word) (q : AmoQual) (key now : Nat) : Bool :=
  r.addr == va && r.dbl == q.dbl && r.pa == key && decide (now < r.since + 4096)

/-- SC (R207): with a matching reservation the word is written and g_d := 0; otherwise g_d := 1. The reservation is
cleared in either case. -/
def State.storeConditional (s : State) (q : AmoQual) (d a b : Reg) : Res Unit :=
  let va := s.readG a
  let y := s.readG b
  (s.amoChecks q va).bind fun _ s =>
    (s.check s.ctx va .store .linked).bind fun g s =>
      if s.isPoisoned g.key (amoBytes q) then .trap (Trap.sync 0x18 va) (s.usePoison s.myTile g.key)
      else
        let ok := match s.me.resv with
          | some r => r.holds va q g.key (s.cyclesOf s.cur)
          | none => false
        let s := if ok then (s.atomicAt g true).perform s.ctx { g with uncached := true } va (leBytes (amoBytes q) y.toNat)
          else s.atomicAt g false
        .ok () ((s.mapMe fun x => { x with resv := none }).writeRetire d (if ok then 0 else 1))

/-! ## Meanings -/

/-- LR (R206). -/
def execLr (q : AmoQual) (d a : Reg) (s : State) : Host.Outcome State Fault Refusal := (s.loadReserve q d a).finish

/-- SC (R207). -/
def execSc (q : AmoQual) (d a b : Reg) (s : State) : Host.Outcome State Fault Refusal :=
  (s.storeConditional q d a b).finish

/-- AMOSWAP: y := g_b (R205). -/
def execAmoswap (q : AmoQual) (d a b : Reg) (s : State) : Host.Outcome State Fault Refusal :=
  (s.amo q d a b fun _ y _ => some y).finish

/-- AMOADD: y := (x + g_b) mod 2^width (R205). -/
def execAmoadd (q : AmoQual) (d a b : Reg) (s : State) : Host.Outcome State Fault Refusal :=
  (s.amo q d a b fun x y _ => some (x + y)).finish

/-- AMOAND: y := x AND g_b (R205). -/
def execAmoand (q : AmoQual) (d a b : Reg) (s : State) : Host.Outcome State Fault Refusal :=
  (s.amo q d a b fun x y _ => some (x &&& y)).finish

/-- AMOOR: y := x OR g_b (R205). -/
def execAmoor (q : AmoQual) (d a b : Reg) (s : State) : Host.Outcome State Fault Refusal :=
  (s.amo q d a b fun x y _ => some (x ||| y)).finish

/-- AMOXOR: y := x XOR g_b (R205). -/
def execAmoxor (q : AmoQual) (d a b : Reg) (s : State) : Host.Outcome State Fault Refusal :=
  (s.amo q d a b fun x y _ => some (x ^^^ y)).finish

/-- AMOMIN: the smaller, signed (R205). -/
def execAmomin (q : AmoQual) (d a b : Reg) (s : State) : Host.Outcome State Fault Refusal :=
  (s.amo q d a b fun x y _ => some (if y.slt x then y else x)).finish

/-- AMOMAX: the larger, signed (R205). -/
def execAmomax (q : AmoQual) (d a b : Reg) (s : State) : Host.Outcome State Fault Refusal :=
  (s.amo q d a b fun x y _ => some (if x.slt y then y else x)).finish

/-- AMOMINU: the smaller, unsigned (R205). -/
def execAmominu (q : AmoQual) (d a b : Reg) (s : State) : Host.Outcome State Fault Refusal :=
  (s.amo q d a b fun x y _ => some (if y.ult x then y else x)).finish

/-- AMOMAXU: the larger, unsigned (R205). -/
def execAmomaxu (q : AmoQual) (d a b : Reg) (s : State) : Host.Outcome State Fault Refusal :=
  (s.amo q d a b fun x y _ => some (if x.ult y then y else x)).finish

/-- AMOCAS: g_b if x = g_d, else no write (R205). -/
def execAmocas (q : AmoQual) (d a b : Reg) (s : State) : Host.Outcome State Fault Refusal :=
  (s.amo q d a b fun x y e => if x = e then some y else none).finish

end Sys2Proof.Machine
end

