-- ==== Sys2Proof/Machine/Sync.lean ====
section
/-!
DEFINITION. Fences and waiting, major 0x34: R63, R208 to R211; and the events that end a wait or an outstanding access.
-/

namespace Sys2Proof.Machine

/-! ## Fences (R209) -/

/-- A fence at SMk: Scope Error when SMk does not include the issuing tile. The manual names no address field for it, so
the field is a free value (log 14). With drain, the fence waits for the strand's earlier accesses; it waits for no arithmetic
instruction, and VPI stays as it is (R143). -/
def State.fence (s : State) (k : BitVec 4) (drain : Bool) : Res Unit :=
  if (s.me.scopes.getD k.toNat Scope.empty).hasTile s.myTile s.myTile then
    (if drain then s.needPerformed else .ok () s).retire
  else .trap (Trap.sync 0x0C s.free.1) s.free.2

/-- FENCE waits for every earlier access (R209). -/
def execFence (sm : BitVec 4) (s : State) : Host.Outcome State Fault Refusal := (s.fence sm true).finish

/-- FENCE.ACQ waits for earlier loads and read halves of atomics, which have all been performed when it issues (R209). -/
def execFenceAcq (sm : BitVec 4) (s : State) : Host.Outcome State Fault Refusal := (s.fence sm false).finish

/-- FENCE.REL waits for every earlier access (R209). -/
def execFenceRel (sm : BitVec 4) (s : State) : Host.Outcome State Fault Refusal := (s.fence sm true).finish

/-- FENCE.I discards what has been fetched and not issued; the model fetches at issue, so nothing else remains (R209). -/
def execFenceI (s : State) : Host.Outcome State Fault Refusal := .next s.retire

/-! ## WAITA (R210) -/

/-- Whether a WAITA's condition holds of the word read (R210). -/
def waitCond (c : WCond) (x b : Word) : Bool :=
  match c with
  | .eq => x == b
  | .ne => x != b
  | .geu => !x.ult b
  | .ltu => x.ult b

/-- One reading of the watched word by strand k, checked as a scalar load (R210): its value and where it is stored. A reading that times
out compares as 0, which R389 gives a load's destination (DESIGN CHOICE, log 110). -/
def State.watchedWord (s : State) (k : Nat) (a : Word) : Res (Word × Nat) :=
  let c := s.ctxOf k
  if a.toNat % 8 ≠ 0 then .trap (Trap.sync 0x03 a) s
  else (s.check c a .load .plain).bind fun g s =>
    match s.timeoutFor c g with
    | some (j, _) => .ok (0, g.key) (s.timeOut j a)
    | none =>
      if s.isPoisoned g.key 8 then .trap (Trap.sync 0x18 a) (s.usePoison c.tile g.key)
      else .ok (s.load64 g.key, g.key) (s.recordAccess c g false)

/-- Strand k retires its WAITA. -/
def State.wakeRetire (s : State) (k : Nat) : State :=
  s.mapStrand k fun x => { x.retired with run := .running, pc := x.pc + 4 }

/-- WAITA: retires when the condition holds, otherwise the strand sleeps on the word's line. Its timeout counts from its issue, also
where its first read has to wait. -/
def State.waita (s : State) (c : WCond) (aq : Bool) (a b t : Word) : Res Unit :=
  let since := s.me.begun.getD (s.cyclesOf s.cur)
  match s.watchedWord s.cur a with
  | .ok r s =>
    if waitCond c r.1 b then .ok () s.retire
    else .ok () (s.mapMe fun x => { x with run := .sleeping c aq a b t since (lineOf r.2) false, begun := none })
  | .trap t s => .trap t s
  | .wait s => .wait (s.mapMe fun x => { x with begun := some since })

/-- WAITA (R210). -/
def execWaita (c : WCond) (a b x : Reg) (s : State) : Host.Outcome State Fault Refusal :=
  (s.waita c false (s.readG a) (s.readG b) (s.readG x)).finish

/-- WAITA with acquire at device scope (R210). -/
def execWaitaAq (c : WCond) (a b x : Reg) (s : State) : Host.Outcome State Fault Refusal :=
  (s.waita c true (s.readG a) (s.readG b) (s.readG x)).finish

/-- WAITA_WAKE: a sleeper that a write has woken reads the word again; it retires, or sleeps again (R63, R210). -/
def execWaitaWake (k : Nat) (s : State) : Host.Outcome State Fault Refusal :=
  match (s.strand k).run with
  | .sleeping c aq a b t since _ true =>
    ((s.watchedWord k a).bind fun r s =>
      if waitCond c r.1 b then .ok () (s.wakeRetire k)
      else .ok () (s.mapStrand k fun x => { x with run := .sleeping c aq a b t since (lineOf r.2) false })).finishFor k
  | _ => .next s

/-- WAITA_TIMEOUT: the timeout of a sleeper has passed; it reads the word once more and retires (R210). -/
def execWaitaTimeout (k : Nat) (s : State) : Host.Outcome State Fault Refusal :=
  match (s.strand k).run with
  | .sleeping _ _ a _ t since _ _ =>
    if t ≠ 0 ∧ since + t.toNat ≤ s.cyclesOf k then
      ((s.watchedWord k a).bind fun _ s => .ok () (s.wakeRetire k)).finishFor k
    else .next s
  | _ => .next s

/-! ## ENGWAIT (R211) -/

/-- The number of a strand's task; 0 for a strand that holds none. -/
def Strand.taskId (x : Strand) : Nat :=
  match x.task with
  | some t => t.id
  | none => 0

/-- Whether an accepted engine command of the task is still to complete or fault (R211). -/
def State.enginesBusy (s : State) (task : Nat) : Bool := s.cmds.any fun e => e.2.task == task

/-- ENGWAIT stalls until every engine command of the task is complete or faulted (R211). -/
def execEngwait (s : State) : Host.Outcome State Fault Refusal :=
  if s.enginesBusy s.me.taskId then .next (s.mapMe fun x => { x with engwait := true }) else .next s.retire

/-! ## Events -/

/-- Whether an outstanding access is a train (R181). -/
def OutstKind.isTrain : OutstKind → Bool
  | .train _ => true
  | _ => false

/-- The oldest outstanding access of strand k of one kind, stores or trains, is acknowledged, once the strand's writes are complete
(R355). -/
def State.acknowledge (s : State) (k : Nat) (train : Bool) : State :=
  let x := s.strand k
  if s.owesTrigger k then s else
  match x.outst.findIdx? fun o => o.kind.isTrain == train with
  | some i => s.setStrand k { x with outst := x.outst.eraseIdx i }
  | none => s

/-- ACCESS_PERFORMED: the oldest outstanding store of a strand is performed and acknowledged (R209). -/
def execAccessPerformed (k : Nat) (s : State) : Host.Outcome State Fault Refusal := .next (s.acknowledge k false)

/-- TRAIN_ACK: a destination has performed a train's whole count and acknowledges it (R181). -/
def execTrainAck (k : Nat) (s : State) : Host.Outcome State Fault Refusal := .next (s.acknowledge k true)

/-- LR_RESERVATION_EXPIRE: a load reservation is lost 4,096 cycles after its LR (R207). -/
def execLrReservationExpire (k : Nat) (s : State) : Host.Outcome State Fault Refusal :=
  match (s.strand k).resv with
  | some r => if r.since + 4096 ≤ s.cyclesOf k then .next (s.mapStrand k fun x => { x with resv := none }) else .next s
  | none => .next s

/-- Whether an element of an outstanding access may end in an error (R172, R389): in poison; in a timeout, 100 µs after the access was
made, if its request leaves the module or the die. -/
def Outst.elemFails (o : Outst) (poison : Bool) (addr : Word) (clock : Nat) (a : Word × Bool) : Bool :=
  a.1 == addr && (poison || (a.2 && decide (o.since + 100_000 ≤ clock)))

/-- Whether an outstanding access may end in an error for an address. -/
def Outst.fails (o : Outst) (poison : Bool) (addr : Word) (clock : Nat) : Bool := o.addrs.any (o.elemFails poison addr clock)

/-- What stays outstanding of an access once an element has ended in an error: nothing of a train, which has one acknowledgement; else
the other elements, and the access itself while a write of the strand is not complete (R181, R189, R355). -/
def Outst.afterError (o : Outst) (owes poison : Bool) (addr : Word) (clock : Nat) : List Outst :=
  let l := o.addrs.eraseP (o.elemFails poison addr clock)
  if o.kind.isTrain || (l.isEmpty && !owes) then [] else [{ o with addrs := l }]

/-- DEFERRED_ERROR: an error arrives for an element of an outstanding store or for a train, and a deferred trap becomes pending (R172,
R389). The elements of a train that times out have been performed (R181; log 98). With nothing outstanding that it can be for, nothing
happens. -/
def execDeferredError (k : Nat) (poison : Bool) (addr : Word) (s : State) : Host.Outcome State Fault Refusal :=
  let x := s.strand k
  match x.outst.findIdx? fun o => o.fails poison addr s.clock with
  | some i =>
    let left := (x.outst[i]?.toList.flatMap fun o => o.afterError (s.owesTrigger k) poison addr s.clock)
    let s := s.setStrand k { (x.defer (if poison then 0x18 else 0x19) addr) with
      outst := x.outst.take i ++ left ++ x.outst.drop (i + 1) }
    .next (s.count (dieOfStrand k) (if poison then .poisonuse else .rtimeout))
  | none => .next s

/-- REMOTE_TIMEOUT: the response to the strand's next request that leaves its die does not arrive within 100 µs; performed
says whether the request takes effect all the same (R389). -/
def execRemoteTimeout (k : Nat) (performed : Bool) (s : State) : Host.Outcome State Fault Refusal :=
  .next (s.mapStrand k fun x => { x with lost := some (performed, none) })

end Sys2Proof.Machine
end

