-- ==== Sys2Proof/Machine/Async.lean ====
section
/-!
DEFINITION. Asynchronous causes and their order (R239), and pre-emption requests (R37, R375, R376).
-/

namespace Sys2Proof.Machine

/-- Whether a strand holds none of what puts off its pre-emption: lane groups, accumulators, a fabric load (R37). -/
def State.holdsNothing (s : State) (k : Nat) : Bool :=
  (s.groupsOf k).isEmpty && s.accen k == 0 && (s.ownsActive k).isNone && (s.ownsShadow k).isNone

/-- Whether a strand waits where a pre-emption request ends the wait whatever it holds: in WAITA (R32, R210), in SETVL (R33),
for an engine (R212), in TSWAP (R226). -/
def Strand.waitsOpen (x : Strand) : Bool :=
  match x.run with
  | .sleeping _ _ _ _ _ _ _ _ | .stalled _ _ _ | .accepting _ | .swapping => true
  | _ => false

/-- Whether the pre-emption request of strand k, if there is one, is delivered at an instruction boundary or a wait: the
strand holds nothing, or the request is forced, or was raised while the handler of an earlier one ran, or it ends the wait
(R37, R376). -/
def State.preemptNow (s : State) (k : Nat) : Bool :=
  match (s.strand k).pend.preempt with
  | some (_, forced) => forced || (s.strand k).pend.further || s.holdsNothing k || (s.strand k).waitsOpen
  | none => false

/-- The trap of an asynchronous cause; a pending single step goes with it as STEPPED (R239). Before an END or an accumulator access
that was to resume it leaves the step or row in TROW, so that nothing is made twice (R40, R198, R238). R170 gives LGCNT only where a check
has failed: of a deferred error of a vector memory instruction TLGA and TLGB are 0 (DESIGN CHOICE, log 100). -/
def asyncTrap (x : Strand) (cause : BitVec 8) (a : Word) (deferred : Bool) (eng : Word) : Trap :=
  { Trap.sync cause a with stepped := x.pend.step, deferred := deferred, eng := eng, row := if x.resume then x.trow else 0 }

/-- The strand without its pending single step. -/
def Pending.noStep (p : Pending) : Pending := { p with step := false }

/-- What is pending once the pre-emption request is delivered (R376). -/
def Pending.served (p : Pending) : Pending := { p with preempt := Option.none, further := false }

/-- The trap of a pre-emption request: TREC is 1 for a forced one (R376). An access that it stops midway leaves its
counters in the trap record (R173, R199). -/
def preemptTrap (x : Strand) (forced : Bool) : Trap :=
  let t := asyncTrap x 0x13 (ofBool forced) false 0
  match x.part with
  | some p => { t with tlg := p.tlg, row := p.row, busy := p.busy }
  | none => t

/-- The cause that strand k takes first, and what stays pending (R239). A vector or accumulator access that waits midway
is stopped only by a forced pre-emption, and only where it waits at a range reservation with no train unacknowledged (R173, R181,
R199; log 88); in ENGWAIT a faulted command's trap waits for the boundary after it
(R211; log 84). A deferred error of a load that has trapped comes first after its ERET (log 100). The
Single Step trap itself has STEPPED 0 (log 117). -/
def State.firstCause (s : State) (k : Nat) : Option (Trap × Pending) :=
  let x := s.strand k
  let p := x.pend
  if x.part.isSome then
    match p.preempt with
    | some (_, true) =>
      if (x.part.map (·.shut)).getD false && !(x.outst.any fun o => o.kind.isTrain) then some (preemptTrap x true, p.served)
      else none
    | _ => none
  else if x.engwait && !p.engine.isEmpty then none
  else match p.deferred, p.engine, p.fabric, p.gangAbort with
  | (c, a) :: r, _, _, _ => some (asyncTrap x c a true 0, { p.noStep with deferred := r })
  | [], (c, a, e) :: r, _, _ => some (asyncTrap x c a false e, { p.noStep with engine := r })
  | [], [], (c, a) :: r, _ => some (asyncTrap x c a false 0, { p.noStep with fabric := r })
  | [], [], [], m :: r => some (asyncTrap x 0x12 (BitVec.ofNat 64 m) false 0, { p.noStep with gangAbort := r })
  | [], [], [], [] =>
    if p.step then some ({ Trap.sync 0x15 0 with stepped := false }, p.noStep)
    else if s.preemptNow k then
      some (preemptTrap x ((p.preempt.map (·.2)).getD false), p.served)
    else none

/-- Whether a strand stands at a boundary, or in a wait, at which asynchronous causes are delivered: at user level, with a
task that still runs (R32, R239). An END whose conditions have held completes (R375). That every cause, and not a pre-emption only,
ends a wait in END, SETVL, TSWAP or for an engine is the model's reading (log 68). -/
def Strand.interruptible (x : Strand) : Bool :=
  !x.pl && match x.run with
  | .free | .suspending _ _ _ | .aborting _ => false
  | .ending _ step => step == 0
  | _ => true

/-- Strand k takes the first of its pending causes, if it stands where one is delivered. EPC is the instruction that would
run next; for a wait, the waiting instruction (R32, R239). -/
def State.takeAsync (s : State) (k : Nat) : State :=
  if (s.strand k).interruptible then
    match s.firstCause k with
    | some (t, p) =>
      let x := s.strand k
      let setvl := match x.run with
        | .stalled _ _ _ => true
        | _ => false
      let at_ := if p.preempt.isNone then x.pend.preempt.map fun r => (r.1, r.2, setvl) else none
      (s.mapStrand k fun x => { x with pend := p, reqAt := at_ }).enterTrapOf k t
    | none => s
  else s

/-- ASYNC_TRAP (R239). -/
def execAsyncTrap (k : Nat) (s : State) : Host.Outcome State Fault Refusal := .next (s.takeAsync k)

/-- Whether strand k has a cause to take before its next user-level instruction (R239). -/
def State.asyncReady (s : State) (k : Nat) : Bool := (s.strand k).interruptible && (s.firstCause k).isSome

/-- PREEMPT_FORCE: a request not delivered within 2 ms is forced, and counted (R376). -/
def execPreemptForce (k : Nat) (s : State) : Host.Outcome State Fault Refusal :=
  match (s.strand k).pend.preempt, (s.strand k).task with
  | some (t, false), some _ =>
    if t + 2_000_000 ≤ s.clock then
      .next ((s.mapStrand k fun x => { x with pend := { x.pend with preempt := some (t, true) } }).count
        (dieOfStrand k) .fpreempt)
    else .next s
  | _, _ => .next s

/-- A pre-emption request raised for strand k, and, for a gang member, for every member (R26, R375); one raised while the
handler of an earlier request runs is a further one (R376). -/
def State.raisePreempt (s : State) (k : Nat) : State :=
  let one (x : Strand) : Strand :=
    { x with pend := { x.pend with preempt := some ((x.pend.preempt).getD (s.clock, false)),
                                   further := x.pend.further || (x.pl && x.reqAt.isSome) } }
  let gang := (s.strand k).task.bind fun t => t.gang
  let s := s.mapStrand k one
  match gang with
  | some g => { s with strands := s.strands.map fun e => (e.1, if e.2.inGang g.id then one e.2 else e.2) }
  | none => s

/-- A write to PREQ word w of die d: a request for each local strand whose bit is 1 (R375). -/
def State.preqWrite (s : State) (d w : Nat) (bits : Word) : State :=
  (List.range 64).foldl (fun s b => if bits.getLsbD b then s.raisePreempt (640 * d + 64 * w + b) else s) s

/-- PREQ (R375). -/
def execPreq (d w : Nat) (bits : Word) (s : State) : Host.Outcome State Fault Refusal :=
  if d < 4 ∧ w < 10 then .next (s.preqWrite d w bits) else .next s

end Sys2Proof.Machine
end

