-- ==== Sys2Proof/Machine/Queue.lean ====
section
/-!
DEFINITION. Task records (R348, R349), the dispatchers' queues (R354 to R358), the choice of a strand (R31, R350, R357)
and the state in which a task starts (R236, R314).
-/

namespace Sys2Proof.Machine

/-! ## Task records (R348, R349) -/

/-- HINTV and HINT of a task record: the cask it names, if it names one. -/
def hintOf (w : Vector Word 8) : Option Nat := if w[0].getLsbD 61 then some (field w[3] 56 8) else none

/-- A task record is well formed (R348, R349). -/
def recordOk (w : Vector Word 8) : Bool :=
  field w[0] 57 4 == 0 && field w[0] 0 2 == 0 &&
  field w[1] 57 7 == 0 &&
  field w[2] 57 7 == 0 && field w[2] 0 3 == 0 &&
  field w[3] 53 3 == 0 &&
  ((List.range 4).all fun i => field (w.getD (4 + i) 0) 57 7 == 0 && field (w.getD (4 + i) 0) 0 3 == 0) &&
  (if w[0].getLsbD 61 then decide (field w[3] 56 8 < 160) else field w[3] 56 8 == 0)

/-! ## The queue (R354, R355) -/

/-- The lowest queue slot that no record holds. -/
def freeSlot (q : List QRec) : Nat := ((List.range 4096).find? fun i => q.all fun r => r.slot != i).getD 4096

/-- Whether a dispatcher's queue has a free slot that nothing waits for (R354, R355). -/
def State.hasRoom (s : State) (d : Nat) : Bool :=
  decide ((s.die d).queue.length < 4096) && s.waiting.all fun w => w.die != d

/-- The place of a record among those that reach a dispatcher in one cycle: triggers, then boot launches, then spawned records
by the number of their strand (R355; log 107). -/
def QRec.rank (r : QRec) : Nat := if r.origin = 2 then 0 else if r.origin = 3 then 1 else 2 + r.by_

/-- A queue with a record behind everything but the records of the same cycle that it goes before (R355). -/
def joinQueue (r : QRec) : List QRec → List QRec
  | [] => [r]
  | q :: l => if q.enq = r.enq ∧ r.rank < q.rank then r :: q :: l else q :: joinQueue r l

/-- The record as it stands at the tail of its level on die d. -/
def State.enqueue (s : State) (d : Nat) (r : QRec) : State :=
  s.mapDie d fun x =>
    { x with queue := joinQueue { r with slot := freeSlot x.queue } x.queue, used := max x.used (freeSlot x.queue + 1) }

/-- A new record (R354): the level from PRIO, the time from the reference clock, the issuing strand as its spawner. -/
def State.newRec (s : State) (w : Vector Word 8) (origin members : Nat) (asid : BitVec 16) (root : BitVec 40) (g2 : Word) :
    QRec :=
  { slot := 0, words := w, level := BitVec.ofNat 2 (field w[0] 62 2), origin := BitVec.ofNat 2 origin, members := members,
    rcask := none, asid := asid, root := root, g2 := g2, enq := s.clock, stamp := s.clock, by_ := s.cur }

/-- The die whose dispatcher takes a record that reaches die d: the die of the hinted cask (R350). -/
def recordDie (d : Nat) (w : Vector Word 8) : Nat :=
  match hintOf w with
  | some c => c / 40
  | none => d

/-- One more trigger of entry n of die d has been enqueued (R352). -/
def State.countFired (s : State) (entry : Option (Nat × Nat)) : State :=
  match entry with
  | none => s
  | some (d, n) => s.mapDie d fun x =>
      { x with watch := x.watch.put n { x.watch.find WatchEnt.reset n with fired := (x.watch.find WatchEnt.reset n).fired + 1 } }

/-- A record from a trigger or a boot launch: enqueued at its die, or kept waiting for a slot (R355). -/
def State.enqueueOrWait (s : State) (d : Nat) (r : QRec) (entry : Option (Nat × Nat)) (writer : Option Asker) : State :=
  if s.hasRoom d then (s.enqueue d r).countFired entry
  else { s with waiting := s.waiting ++ [{ die := d, rcd := r, entry := entry, writer := writer }] }

/-! ## Aging (R356, R382) -/

/-- Whether something that reached its level at stamp moves up: it has waited 1 ms there, and is not at level 0 (R356). -/
def State.promotes (s : State) (level : BitVec 2) (stamp : Nat) : Bool :=
  level != 0 && decide (stamp + 1_000_000 ≤ s.clock)

/-- Whether a resume entry is complete and ages: a gang's only once its last member has suspended (R382). -/
def State.wholeEntry (s : State) (r : ResumeEnt) : Bool :=
  match r.ctxs with
  | { gang := some g, .. } :: _ => !(s.strands.any fun e => e.2.inGang g.id)
  | _ => true

/-- The record of die d that has been due for the next level the longest, if one is due: the first of equals in the queue's
order (R356). -/
def State.firstDue (s : State) (d : Nat) : Option QRec :=
  ((s.die d).queue.filter fun r => s.promotes r.level r.stamp).foldl (fun m r => match m with
    | none => some r
    | some q => if r.stamp < q.stamp then some r else some q) none

/-- A record of die d at the tail of the next higher level (R356). -/
def State.promote (s : State) (d : Nat) (r : QRec) : State :=
  let r' : QRec := { r with level := r.level - 1, stamp := r.stamp + 1_000_000 }
  s.mapDie d fun x => { x with queue := (x.queue.filter fun q => q.slot != r.slot) ++ [r'] }

/-- The records of die d that are due moved up, in the order in which they became due. fuel bounds their number. -/
def State.ageQueue (s : State) (d : Nat) : Nat → State
  | 0 => s
  | n + 1 => match s.firstDue d with
    | none => s
    | some r => (s.promote d r).ageQueue d n

/-- A resume entry moved up while it is due: at most three levels (R356, R382). -/
def State.ageEntry (s : State) (r : ResumeEnt) : Nat → ResumeEnt
  | 0 => r
  | n + 1 =>
    if s.wholeEntry r && s.promotes r.level r.stamp then
      s.ageEntry { r with level := r.level - 1, stamp := r.stamp + 1_000_000 } n
    else r

/-- The state once every die has applied the aging that is due (R356, R382). -/
def State.aged (s : State) : State :=
  (List.range 4).foldl (fun s d =>
    let s := s.ageQueue d (3 * (s.die d).queue.length)
    if (s.die d).resumeq.isEmpty then s
    else s.mapDie d fun x => { x with resumeq := x.resumeq.map fun r => s.ageEntry r 3 }) s

/-! ## Choosing a strand (R31, R350, R357) -/

/-- The dispatcher may place work on tile t: it is neither fused off, retired nor draining (R14, R417). -/
def State.tileOpen (s : State) (t : Nat) : Bool :=
  !s.tileOut t && s.cogor.draining != some t

/-- A cask whose four tiles are neither fused off nor retired (R31, R350, R357). -/
def State.wholeCask (s : State) (c : Nat) : Bool := (List.range 4).all fun i => !s.tileOut (4 * c + i)

/-- The free strands of tile t, in ascending order. -/
def State.freeStrands (s : State) (t : Nat) : List Nat :=
  if s.tileOpen t then ((List.range 4).map fun i => 4 * t + i).filter fun k => (s.strand k).run == .free else []

/-- The occupied strands of tile t. -/
def State.occupied (s : State) (t : Nat) : Nat :=
  ((List.range 4).filter fun i => (s.strand (4 * t + i)).run != .free).length

/-- The occupied strands of cask c. -/
def State.caskOccupied (s : State) (c : Nat) : Nat := ((List.range 4).map fun i => s.occupied (4 * c + i)).sum

/-- The candidate with the least measure, the earliest of equals. -/
def leastBy (f : Nat → Nat) : List Nat → Option Nat
  | [] => none
  | x :: r =>
    match leastBy f r with
    | none => some x
    | some y => if f x ≤ f y then some x else some y

/-- The casks of a die. -/
def casksOf (d : Nat) : List Nat := (List.range 40).map fun i => 40 * d + i

/-- The casks that gangs of die d have reserved (R357). -/
def State.reservedCasks (s : State) (d : Nat) : List Nat := (s.die d).queue.filterMap (·.rcask)

/-- The strand on which a task's record is placed now, if there is one (R31, R350, R357). -/
def State.taskStrand (s : State) (d : Nat) (w : Vector Word 8) : Option Nat :=
  let open_ := (casksOf d).filter fun c =>
    !(s.reservedCasks d).contains c && (List.range 4).any fun i => !(s.freeStrands (4 * c + i)).isEmpty
  let cask := match (hintOf w).filter fun c => s.wholeCask c && open_.contains c with
    | some c => some c
    | none => leastBy s.caskOccupied open_
  cask.bind fun c =>
    (leastBy s.occupied (((List.range 4).map fun i => 4 * c + i).filter fun t => !(s.freeStrands t).isEmpty)).bind fun t =>
      (s.freeStrands t).head?

/-- The strands of cask c for a gang of n members, member m on tile m mod 4, if the cask has them all free (R26). -/
def State.gangStrands (s : State) (c n : Nat) : Option (List Nat) :=
  if s.wholeCask c && s.frozen.all fun f => f.cask != c then
    (List.range n).foldr (fun m acc => acc.bind fun l => ((s.freeStrands (4 * c + m % 4))[m / 4]?).map (· :: l)) (some [])
  else none

/-- The hint of a gang that holds: a hinted cask that is whole. A cask that is not whole displaces the gang (R350). -/
def State.gangHint (s : State) (w : Vector Word 8) : Option Nat := (hintOf w).filter fun c => s.wholeCask c

/-- The cask and strands on which a gang is placed now, if there are any (R31, R357). -/
def State.gangPlace (s : State) (d : Nat) (r : QRec) : Option (List Nat) :=
  let free_ := fun c => r.rcask == some c || !(s.reservedCasks d).contains c
  let fits := fun c => free_ c && (s.gangStrands c r.members).isSome
  match s.gangHint r.words with
  | some c => if fits c then s.gangStrands c r.members else none
  | none =>
    match r.rcask.filter fits with
    | some c => s.gangStrands c r.members
    | none => (leastBy s.caskOccupied ((casksOf d).filter fits)).bind fun c => s.gangStrands c r.members

/-- The strands on which a record is placed now: one for a task, one for each member of a gang. -/
def State.recordPlace (s : State) (d : Nat) (r : QRec) : Option (List Nat) :=
  if r.members = 0 then (s.taskStrand d r.words).map (fun k => [k]) else s.gangPlace d r

/-- The records of a queue at level l, head first. -/
def atLevel (q : List QRec) (l : Nat) : List QRec := q.filter fun r => r.level.toNat == l

/-- The first record, in the order of the scan, that can be placed (R357). -/
def State.firstRecord (s : State) (d : Nat) : Option (QRec × List Nat) :=
  ((List.range 4).flatMap fun l => atLevel (s.die d).queue l).findSome? fun r => (s.recordPlace d r).map fun p => (r, p)

/-! ## The start of a task (R236, R314) -/

/-- The scope masks at a task's first instruction (R236). -/
def startScopes : Vector Scope 16 :=
  let sc (r : BitVec 3) (out : Bool) : Scope := { tiles := 0, peers := out, host := out, rel := r }
  ((((((Vector.replicate 16 Scope.empty).setIfInBounds 0 (sc 1 false)).setIfInBounds 1 (sc 2 false)).setIfInBounds 2
    (sc 3 false)).setIfInBounds 3 (sc 4 false)).setIfInBounds 4 (sc 4 true))

/-- g4 at entry: STACK4 × 16 (R348). -/
def stackTop (w : Vector Word 8) : Word := BitVec.ofNat 64 (field w[3] 0 53 * 16)

/-- The strand at a task's first instruction: what R145, R236, R314 and R349 fix; the trap registers keep their values
(R235). -/
def Strand.started (x : Strand) (t : Task) (asid : BitVec 16) (root : BitVec 40) (g2 g3 : Word) : Strand :=
  let g := ((((Vector.replicate 32 (0 : Word)).setIfInBounds 1 t.words[1]).setIfInBounds 2 g2).setIfInBounds 3
    g3).setIfInBounds 4 (stackTop t.words)
  { x with run := .running, pc := BitVec.ofNat 64 (field t.words[0] 0 57), g := g, m := Vector.replicate 8 0, vl := 0,
           ew := .w64, rm := 0, empty := false, vflags := 0, vpi := 0, pl := false, ppl := false, ss := false,
           pss := false, ta := false, fflags := 0, eeos := false, rflags := 0, rngSeed := 0, rngCtr := 0,
           scopes := startScopes, root := root, asid := asid, resv := none, task := some t, pend := Pending.none,
           resume := false, outst := [], lost := none, asked := [], walks := [], kept := [], engwait := false,
           part := none, partly := 0, begun := none, reqAt := none }

/-- The members of a placed record started, in order; gang is the model's number of the gang, if it is one. -/
def State.startAll (s : State) (r : QRec) (gang : Option Nat) : List Nat → Nat → State
  | [], _ => s
  | k :: ks, m =>
    let ref := gang.map fun i => { id := i, member := m, count := r.members, cask := caskOf (tileOf k) : GangRef }
    let t : Task := { id := s.newId.1, words := r.words, level := r.level, gang := ref }
    let g2 := if gang.isSome then BitVec.ofNat 64 m else r.g2
    let g3 := if gang.isSome then BitVec.ofNat 64 r.members else 0
    State.startAll (s.newId.2.mapStrand k fun x => x.started t r.asid r.root g2 g3) r gang ks (m + 1)

/-- A record placed: out of the queue, its tasks at their first instructions (R26, R357); a gang displaced from a cask
that is not whole is counted (R350). -/
def State.place (s : State) (d : Nat) (r : QRec) (ks : List Nat) : State :=
  let s := s.mapDie d fun x => { x with queue := x.queue.filter fun q => q.slot != r.slot }
  if r.members = 0 then s.startAll r none ks 0
  else
    let s := if (hintOf r.words).isSome && (s.gangHint r.words).isNone then s.count d .dispgang else s
    s.newId.2.startAll r (some s.newId.1) ks 0

/-! ## Triggers (R27 to R30, R351, R353) -/

/-- A trigger enqueued to the handler of entry e: its record, with the trigger address in g2 and in the completion
address when CIDX is set (R351, R354). -/
def State.enqueueTrigger (s : State) (d n : Nat) (e : WatchEnt) (writer : Option Asker) (a : Word) : State :=
  let cpl : Word := if e.desc[5] = 0 then 0
    else if e.desc[1].getLsbD 10 then e.desc[5] + ((a - e.desc[0]) &&& ~~~(7 : Word)) else e.desc[5]
  let w : Vector Word 8 := #v[e.desc[3], e.desc[4], cpl, e.desc[6], e.desc[7], 0, 0, 0]
  let r := s.newRec w 2 0 e.asid e.root a
  let e' := { e with latched := none, armed := e.armed && !e.desc[1].getLsbD 7 }
  (s.mapDie d fun x => { x with watch := x.watch.put n e' }).enqueueOrWait (recordDie d w) r (some (d, n)) writer

/-- A trigger reaches the watch table, and is judged by the entry as it then stands: enqueued, latched, lost or dropped
(R29, R30). -/
def State.deliver (s : State) (t : Trigger) : State :=
  let e := (s.die t.die).watch.find WatchEnt.reset t.entry
  match lowestIn e.segs t.spans with
  | none => s
  | some va =>
    if !e.armed then s
    else if e.bound then s.enqueueTrigger t.die t.entry e t.writer (BitVec.ofNat 64 va)
    else if e.desc[1].getLsbD 8 && e.latched.isNone then
      s.mapDie t.die fun x => { x with watch := x.watch.put t.entry { e with latched := some t.spans } }
    else s.mapDie t.die fun x => { x with dlost := x.dlost + 1 }

end Sys2Proof.Machine
end

