-- ==== Sys2Proof/Machine/Task.lean ====
section
/-!
DEFINITION. Tasks, gangs, watch entries and END, major 0x37: R38 to R40, R227 to R230, R348 to R352.
-/

namespace Sys2Proof.Machine

/-! ## TSPAWN and GANG (R228) -/

/-- The task record at g_a: aligned to 64 bytes, read as scalar loads, and well formed (R228). -/
def State.taskRecord (s : State) (va : Word) : Res (Vector Word 8) :=
  if va.toNat % 64 ≠ 0 then .trap (Trap.sync 0x03 va) s
  else (s.readRecord s.ctx va).bind fun w s =>
    if recordOk w then .ok w s else .trap (Trap.sync 0x1A va) s

/-- A record enqueued for the issuing strand, as a release; a full queue, and a dispatcher in bring-up, which accepts only boot
launches, make the strand wait (R25, R228, R350, R400; log 31). -/
def State.spawn (s : State) (w : Vector Word 8) (origin members : Nat) : Res Unit :=
  s.needPerformed.bind fun _ s =>
    let d := recordDie (dieOfStrand s.cur) w
    if s.hasRoom d && !s.cogor.bringup.getLsbD d then .ok () (s.enqueue d (s.newRec w origin members s.me.asid s.me.root 0)).retire
    else .wait s

/-- TSPAWN (R228). -/
def execTspawn (a : Reg) (s : State) : Host.Outcome State Fault Refusal :=
  ((s.taskRecord (s.readG a)).bind fun w s => s.spawn w 0 0).finish

/-- GANG: 1 to 16 members, or Format Error (R228). -/
def execGang (a b : Reg) (s : State) : Host.Outcome State Fault Refusal :=
  let n := (s.readG b).toNat
  ((s.taskRecord (s.readG a)).bind fun w s =>
    if 1 ≤ n ∧ n ≤ 16 then s.spawn w 1 n else .trap (Trap.sync 0x1A (s.readG a)) s).finish

/-- GANG.LEAVE; nothing for a strand in no gang (R229). -/
def execGangLeave (s : State) : Host.Outcome State Fault Refusal := .next (s.leaveGang s.cur).retire

/-! ## WATCH (R230, R351, R352) -/

/-- The entry that g_a names on the issuing die, or Access Violation (R230, R352). -/
def State.watchEntry (s : State) (a : Word) : Res WatchEnt :=
  let e := (s.die (dieOfStrand s.cur)).watch.find WatchEnt.reset a.toNat
  if 1024 ≤ a.toNat then .trap (Trap.sync 0x07 a) s
  else if s.me.pl ∨ e.asid = 0xFFFF ∨ e.asid = s.me.asid then .ok e s
  else .trap (Trap.sync 0x07 a) s

/-- The state with entry n of the issuing die replaced. -/
def State.setWatch (s : State) (n : Nat) (e : WatchEnt) : State :=
  s.mapDie (dieOfStrand s.cur) fun x => { x with watch := x.watch.put n e }

/-- A watch descriptor is well formed (R349, R351). -/
def watchOk (w : Vector Word 8) : Bool :=
  let lines := field w[1] 32 32
  field w[0] 57 7 == 0 && field w[0] 0 7 == 0 &&
  decide (1 ≤ lines) && field w[1] 11 21 == 0 && field w[1] 0 6 == 0 &&
  (if w[1].getLsbD 6 then decide (w[2].toNat % 4 = 0) && decide (w[2].toNat < lines * 128) else w[2] == 0) &&
  field w[3] 57 4 == 0 && field w[3] 0 2 == 0 &&
  field w[4] 57 7 == 0 &&
  field w[5] 57 7 == 0 && field w[5] 0 3 == 0 &&
  field w[6] 53 3 == 0 &&
  (if w[3].getLsbD 61 then decide (field w[6] 56 8 < 160) else field w[6] 56 8 == 0) &&
  field w[7] 57 7 == 0 && field w[7] 0 3 == 0

/-- A span added to a translation, joined to the span before it when both run on. -/
def addSeg (segs : List (Nat × Nat × Nat)) (va pa n : Nat) : List (Nat × Nat × Nat) :=
  match segs.getLast? with
  | some (v, p, m) => if v + m = va ∧ p + m = pa then segs.dropLast ++ [(v, p, m + n)] else segs ++ [(va, pa, n)]
  | none => [(va, pa, n)]

/-- The virtual address of the page that holds va: of the 4 KiB granule with translation off (R351, R366). -/
def pageStart (ent : Option TlbEnt) (va : Nat) : Word :=
  BitVec.ofNat 64 (match ent with
    | some e => e.va
    | none => alignDown va 0x1000)

/-- The translation of n bytes from va, page by page, as loads: every page in HBM or Cellar, or the trap of BIND with
that page's virtual address; of an address that does not translate, its 4 KiB granule's (R351). fuel bounds the number of
pages. -/
def State.bindPages (s : State) (c : Ctx) : Nat → Nat → Nat → List (Nat × Nat × Nat) → Res (List (Nat × Nat × Nat))
  | 0, _, _, segs => .ok segs s
  | fuel + 1, va, n, segs =>
    if n = 0 then .ok segs s else
    let m := min n (0x1000 - va % 0x1000)
    match s.translate c (BitVec.ofNat 64 va) .load with
    | (.fail cause, s) => .trap (Trap.sync cause (pageStart none va)) s
    | (.hold, s) => .wait s
    | (.ok pa _ ent, s) =>
      let p := s.resolveAlias (placeOf c.tile pa)
      match p with
      | .hbm _ | .cellar _ =>
        if s.mayReach c.tile p then State.bindPages s c fuel (va + m) (n - m) (addSeg segs va p.key m)
        else .trap (Trap.sync 0x07 (pageStart ent va)) s
      | _ => .trap (Trap.sync 0x07 (pageStart ent va)) s

/-- WATCH.BIND: descriptor read and checked, its range translated, and the entry replaced in one step; a latched trigger
goes to the new handler in that step (R29, R30, R230, R351). -/
def State.watchBind (s : State) (a b : Word) : Res Unit :=
  (s.watchEntry a).bind fun e s =>
    if b.toNat % 64 ≠ 0 then .trap (Trap.sync 0x03 b) s
    else (s.readRecord s.ctx b).bind fun w s =>
      if !watchOk w then .trap (Trap.sync 0x1A b) s
      else
        let n := field w[1] 32 32 * 128
        (s.bindPages s.ctx (n / 0x1000 + 2) w[0].toNat n []).bind fun segs s =>
          let e' := { e with desc := w, armed := w[1].getLsbD 9, bound := true, asid := s.me.asid, segs := segs,
                             root := s.me.root }
          let s := s.setWatch a.toNat e'
          match e.latched with
          | none => .ok () s.retire
          | some spans =>
            match lowestIn segs spans with
            | some va => .ok () (s.enqueueTrigger (dieOfStrand s.cur) a.toNat e' none (BitVec.ofNat 64 va)).retire
            | none => .ok () (s.free.2.enqueueTrigger (dieOfStrand s.cur) a.toNat e' none s.free.1).retire

/-- WATCH.BIND (R230). -/
def execWatchBind (a b : Reg) (s : State) : Host.Outcome State Fault Refusal :=
  (s.watchBind (s.readG a) (s.readG b)).finish

/-- WATCH.ARM sets ARMED (R230). -/
def execWatchArm (a : Reg) (s : State) : Host.Outcome State Fault Refusal :=
  ((s.watchEntry (s.readG a)).bind fun e s =>
    .ok () (s.setWatch (s.readG a).toNat { e with armed := true }).retire).finish

/-- WATCH.DISARM clears ARMED and discards any latched trigger (R29, R230). -/
def execWatchDisarm (a : Reg) (s : State) : Host.Outcome State Fault Refusal :=
  ((s.watchEntry (s.readG a)).bind fun e s =>
    .ok () (s.setWatch (s.readG a).toNat { e with armed := false, latched := none }).retire).finish

/-- WATCH.UNBIND removes the handler and leaves ARMED as it was; the ASID is kept (R230, R352). -/
def execWatchUnbind (a : Reg) (s : State) : Host.Outcome State Fault Refusal :=
  ((s.watchEntry (s.readG a)).bind fun e s =>
    .ok () (s.setWatch (s.readG a).toNat { e with bound := false }).retire).finish

/-! ## END (R38 to R40) -/

/-- TSTAT.EEOS of strand k: sticky over every load that its task owned, with the drained load it owns now (R40, R235). -/
def State.tstatEeos (s : State) (k : Nat) : Bool :=
  (s.strand k).eeos ||
  match s.ownsActive k with
  | some l => l.drained && l.eeos
  | none => false

/-- TSTAT.FLAGS of strand k: the cell-lane flags of its load; 0 without one (R235). -/
def State.tstatFlags (s : State) (k : Nat) : Flags :=
  match s.ownsActive k with
  | some l => l.flags
  | none => 0

/-- The conditions for which END waits (R40), with every access that the load's cells have fired performed (R289) and every write
of the strand complete (R355). -/
def State.endReady (s : State) (k : Nat) : Bool :=
  s.settled k &&
  match s.ownsActive k with
  | some l => l.drained && l.performed
  | none => true

/-- The completion word of END (R39, R40). -/
def State.endWord (s : State) (k : Nat) (exit : Word) : Word :=
  let x := s.strand k
  let flags := s.vectorFlags k ||| x.fflags ||| s.tstatFlags k ||| x.rflags
  (1 <<< 63) ||| (ofBool (s.tstatEeos k) <<< 61) ||| (zext (exit.setWidth 16 : BitVec 16) <<< 16) ||| zext flags

/-- The completion write of END, if the task has a completion word (R40). -/
def State.endWrite (s : State) (k : Nat) (exit : Word) : Res Unit :=
  if s.cplAddr k = 0 then .ok () s else s.atomicOr (s.ctxOf k) (s.cplAddr k) (s.endWord k exit)

/-- Successor counter c of strand k's task; 0 for none (R348). -/
def State.succAddr (s : State) (k c : Nat) : Word :=
  match (s.strand k).task with
  | some t => t.words.getD (4 + c) 0
  | none => 0

/-- The strand waits in END: at step 0 for its conditions, at step 1 to make the completion write, at step 2 + c to decrement
counter c. -/
def State.setEnding (s : State) (k : Nat) (exit : Word) (step : Nat) : State :=
  s.mapStrand k fun x => { x with run := .ending exit step }

/-- The decrements from counter 4 - n on, in ascending order; each that is held leaves the strand waiting there, each
that fails traps with the END step in TROW (R40). -/
def State.decrements (s : State) (k : Nat) (exit : Word) : Nat → Res Unit
  | 0 => .ok () s
  | n + 1 =>
    let c := 3 - n
    if s.succAddr k c = 0 then State.decrements s k exit n
    else
      match s.decrement (s.ctxOf k) (s.succAddr k c) with
      | .ok _ s => State.decrements s k exit n
      | .trap t s => .trap { t with row := BitVec.ofNat 6 (1 + c) } s
      | .wait s => .wait (s.setEnding k exit (2 + c))

/-- What END does last: lane groups, accumulators and fabric load released, the strand Free (R40). A stream that a handler has bound
since the END released the others is released too: the strand's next task holds none (R314). -/
def State.endTail (s : State) (k : Nat) : State :=
  ((((s.releaseStreams k).releaseGroups k).releaseAccs k).releaseLoads k).setFree k

/-- The steps of END once its conditions hold, from a step on (R40). The completion write comes after the writes of the streams that
END releases, whose triggers it waits for (R40, R355; log 69). -/
def State.endSteps (s : State) (k : Nat) (exit : Word) (step : Nat) : Res Unit :=
  let head : Res Unit :=
    if step ≤ 1 then
      match ((if step = 0 then s.leaveGang k else s).endStreams k).bind fun _ s => s.endWrite k exit with
      | .wait s => .wait (s.setEnding k exit 1)
      | r => r
    else .ok () s
  head.bind fun _ s => (s.decrements k exit (if step ≤ 1 then 4 else 6 - step)).bind fun _ s => .ok () (s.endTail k)

/-- END of strand k from a step on: at once when its conditions hold, otherwise the strand waits in state Ending. -/
def State.endFrom (s : State) (k : Nat) (exit : Word) (step : Nat) : Res Unit :=
  if step ≠ 0 ∨ s.endReady k then s.endSteps k exit step else .wait (s.setEnding k exit 0)

/-- The step at which an END resumed by ERET goes on: the decrement that TROW names, or the whole END (R40, R241). -/
def Strand.endStep (x : Strand) : Nat := if x.resume ∧ x.trow ≠ 0 then 1 + min x.trow.toNat 4 else 0

/-- END: resumed after ERET at the decrement that TROW names, otherwise in full (R40, R241). -/
def execEndTask (a : Reg) (s : State) : Host.Outcome State Fault Refusal :=
  let s' := s.mapMe fun x => { x with vpi := 0 }
  (s'.endFrom s.cur (s.readG a) s.me.endStep).finish

/-- END_PROCEED: a strand that waits in END goes on once its conditions hold (R40); otherwise nothing happens. -/
def execEndProceed (k : Nat) (s : State) : Host.Outcome State Fault Refusal :=
  match (s.strand k).run with
  | .ending exit step =>
    if step ≠ 0 ∨ s.endReady k then (s.endSteps k exit step).finishFor k else .next s
  | _ => .next s

end Sys2Proof.Machine
end

