-- ==== Sys2Proof/Machine/Csr.lean ====
section
/-!
DEFINITION. The control registers and the CSR instructions, major 0x38: R232 to R236.
-/

namespace Sys2Proof.Machine

/-- The VM width code of R98, which is also VCFG.EW. -/
def widthCode : Width → Nat
  | .w8 => 0 | .w16 => 1 | .w32 => 2 | .w64 => 3 | .w4 => 4 | .w6 => 5

/-- A field value at bit lo. -/
def at_ (v lo : Nat) : Word := BitVec.ofNat 64 (v <<< lo)

/-- A truth value at bit lo. -/
def atB (b : Bool) (lo : Nat) : Word := if b then at_ 1 lo else 0

/-- LATC of a tile (R235). -/
def Tile.latcWord (t : Tile) : Word :=
  (List.range 8).foldl (fun w j => match t.latc.getD j none with
    | some i => w ||| at_ 1 (4 * j + 3) ||| at_ i.val (4 * j)
    | none => w) 0

/-- STATUS of a strand (R235). -/
def Strand.status (x : Strand) : Word :=
  atB x.ta 15 ||| atB x.pss 12 ||| atB x.ss 11 ||| atB x.ppl 9 ||| atB x.pl 8 ||| zext x.fflags

/-- TCFG of a tile (R235); an owner field reads zero while its plane holds no load. -/
def Tile.tcfg (t : Tile) : Word :=
  (match t.active with | some l => at_ 1 7 ||| at_ (l.owner % 4) 4 | none => 0) |||
  (match t.shadow with | some l => at_ 1 6 ||| at_ (l.owner % 4) 2 | none => 0)

/-- TSTAT of strand k (R235). -/
def State.tstat (s : State) (k : Nat) : Word :=
  at_ (s.strand k).rflags.toNat 16 ||| atB (s.tstatEeos k) 9 |||
  atB (match s.ownsActive k with | some l => l.drained | none => false) 8 ||| zext (s.tstatFlags k)

/-- TLGA or TLGB: four counters from number i on (R235). -/
def Strand.tlgWord (x : Strand) (i : Nat) : Word :=
  (List.range 4).foldl (fun w j => w ||| at_ (x.tlg.getD (i + j) 0).toNat (16 * j)) 0

/-- CORECNT: the tiles that can take tasks (R14). -/
def State.coreCount (s : State) : Nat := 640 - popCount 640 s.cogor.retmap.toNat

/-- Word w of a scope mask register (R235). -/
def Scope.word (c : Scope) (w : Nat) : Word :=
  if w < 10 then BitVec.ofNat 64 (c.tiles.toNat >>> (64 * w)) else atB c.peers 9 ||| atB c.host 8 ||| zext c.rel

/-- The scope mask register with word w written; a reserved code of REL leaves REL unchanged (R235). -/
def Scope.setWord (c : Scope) (w : Nat) (v : Word) : Scope :=
  if w < 10 then { c with tiles := setField c.tiles (64 * w) 64 v.toNat }
  else { c with peers := v.getLsbD 9, host := v.getLsbD 8,
                rel := if field v 0 3 < 5 then BitVec.ofNat 3 (field v 0 3) else c.rel }

/-- Whether a CSR number is one of the scope mask words (R234). -/
def isScopeCsr (n : Nat) : Bool := decide (0x100 ≤ n) && decide (n < 0x200) && decide (n % 16 < 11)

/-- The value of control register n for strand k; none for an unassigned number (R234, R235). -/
def State.readCsr (s : State) (k n : Nat) : Option Word :=
  let x := s.strand k
  let t := s.tile (tileOf k)
  match n with
  | 0x000 => some (at_ (widthCode x.ew) 8 ||| zext x.rm)
  | 0x001 => some (atB x.empty 8 ||| zext (s.vectorFlags k))
  | 0x002 => some (at_ (x.vl % 2 ^ 13) 0)
  | 0x003 => some t.latcWord
  | 0x004 => some (zext (x.vpi ||| x.partly))
  | 0x005 => some (zext (s.accen k))
  | 0x006 => some x.status
  | 0x007 => some t.tcfg
  | 0x008 => some (s.tstat k)
  | 0x009 => some x.rngSeed
  | 0x00A => some x.rngCtr
  | 0x00B => some (at_ (s.cyclesOf k) 0)
  | 0x00C => some (at_ s.coreCount 0)
  | 0x00D => some (at_ (k % 4) 16 ||| at_ (tileOf k) 0)
  | 0x00E => some (at_ (caskOf (tileOf k)) 0)
  | 0x800 => some x.tvec
  | 0x801 => some x.tscr
  | 0x802 => some (atB x.def_ 63 ||| atB x.stepped 62 ||| zext x.cause)
  | 0x803 => some (x.epc &&& addrMask)
  | 0x804 => some x.trec
  | 0x805 => some (x.tlgWord 0)
  | 0x806 => some (x.tlgWord 4)
  | 0x807 => some (zext x.trow)
  | 0x808 => some x.teng
  | 0x810 => some (at_ x.root.toNat 12)
  | 0x811 => some (zext x.asid)
  | 0x812 => some (at_ (0xFF0_0001_0000 + dieOfStrand k * 0x1000_0000) 0)
  | n => if isScopeCsr n then some ((x.scopes.getD ((n - 0x100) / 16) Scope.empty).word (n % 16)) else none

/-- The flags of every cell lane of a load with some cleared: a write of 1 to TSTAT.FLAGS (R235). -/
def Load.clearFlags (l : Load) (f : Flags) : Load :=
  { l with cells := l.cells.map fun c => (c.1, { c.2 with flags := c.2.flags.map fun x => x &&& ~~~f }) }

/-- STATUS written: at user level only FFLAGS changes (R235). -/
def Strand.setStatus (x : Strand) (v : Word) : Strand :=
  let f : Flags := v.setWidth 6
  if x.pl then { x with ta := v.getLsbD 15, pss := v.getLsbD 12, ss := v.getLsbD 11, ppl := v.getLsbD 9, fflags := f }
  else { x with fflags := f }

/-- Counters i to i + 3 of the LGCNT registers taken from a word (R235). -/
def Strand.setTlg (x : Strand) (i : Nat) (v : Word) : Strand :=
  { x with tlg := (List.range 4).foldl (fun t j => t.setIfInBounds (i + j) (BitVec.ofNat 16 (field v (16 * j) 16))) x.tlg }

/-- The state after v is written into the writable fields of control register n of strand k (R232 to R235). -/
def State.writeCsr (s : State) (k n : Nat) (v : Word) : State :=
  let on (f : Strand → Strand) : State := s.mapStrand k f
  match n with
  | 0x000 => on fun x => { x with rm := if field v 0 3 < 6 then BitVec.ofNat 3 (field v 0 3) else x.rm }
  | 0x001 => (on fun x => { x with empty := v.getLsbD 8 }).setVectorFlags k (v.setWidth 6)
  | 0x006 => on fun x => x.setStatus v
  | 0x008 =>
    let s := on fun x => { x with rflags := x.rflags &&& ~~~(BitVec.ofNat 6 (field v 16 6)) }
    match s.ownsActive k with
    | some l => s.mapTile (tileOf k) fun t => { t with active := some (l.clearFlags (v.setWidth 6)) }
    | none => s
  | 0x009 => on fun x => { x with rngSeed := v }
  | 0x00A => on fun x => { x with rngCtr := v }
  | 0x800 => on fun x => { x with tvec := v &&& addrMask }
  | 0x801 => on fun x => { x with tscr := v }
  | 0x802 => on fun x => { x with def_ := v.getLsbD 63, stepped := v.getLsbD 62, cause := v.setWidth 8 }
  | 0x803 => on fun x => { x with epc := v &&& addrMask }
  | 0x804 => on fun x => { x with trec := v }
  | 0x805 => on fun x => x.setTlg 0 v
  | 0x806 => on fun x => x.setTlg 4 v
  | 0x807 => on fun x => { x with trow := v.setWidth 6 }
  | 0x808 => on fun x => { x with teng := BitVec.ofNat 64 (field v 0 57) }
  | 0x810 => on fun x => { x with root := BitVec.ofNat 40 (field v 12 40) }
  | 0x811 => on fun x => { x with asid := if field v 0 16 = 0xFFFF then x.asid else BitVec.ofNat 16 (field v 0 16) }
  | n =>
    if isScopeCsr n then on fun x =>
      let i := (n - 0x100) / 16
      { x with scopes := x.scopes.setIfInBounds i ((x.scopes.getD i Scope.empty).setWord (n % 16) v) }
    else s

/-- Whether a CSR number names a supervisor register: bits [11:10] = 0b10 (R231). -/
def supCsr (n : BitVec 12) : Bool := field n 10 2 == 2

/-- Whether a CSR instruction waits until the vector queue is empty (R233): VCFG, VSTAT, VL, LATC, ACCEN, TSTAT; a
write of PTB or ASID. -/
def drainsQueue (n : Nat) (write : Bool) : Bool :=
  [0x000, 0x001, 0x002, 0x003, 0x005, 0x008].contains n || (write && [0x810, 0x811].contains n)

/-- The word of a CSR instruction (R106, R232), for the trap record of an unassigned number (R109, R233). -/
def csrWord (func : Nat) (d a : Reg) (csr : BitVec 12) : Word :=
  at_ 0x38 26 ||| at_ d.toNat 21 ||| at_ a.toNat 16 ||| at_ func 12 ||| zext csr

/-- A CSR instruction (R232, R233): the checks, the old value into g_d, and, for a writing function, the new value into
the fields that this level may write; one step. -/
def State.csrOp (s : State) (func : Nat) (d a : Reg) (csr : BitVec 12) (f : Option (Word → Word → Word)) : Res Unit :=
  match s.readCsr s.cur csr.toNat with
  | none => .trap (Trap.sync 0x01 (csrWord func d a csr)) s
  | some old =>
    if supCsr csr && !s.me.pl then .trap (Trap.sync 0x02 0) s
    else
      let s := if drainsQueue csr.toNat f.isSome then s.mapMe fun x => { x with vpi := 0 } else s
      let s := match f with
        | some f => s.writeCsr s.cur csr.toNat (f old (s.readG a))
        | none => s
      .ok () (s.writeRetire d old)

/-- CSRR: g_d := CSR (R232). -/
def execCsrr (d : Reg) (csr : BitVec 12) (s : State) : Host.Outcome State Fault Refusal :=
  (s.csrOp 0 d 0 csr none).finish

/-- CSRW: new := g_a (R232). -/
def execCsrw (d a : Reg) (csr : BitVec 12) (s : State) : Host.Outcome State Fault Refusal :=
  (s.csrOp 1 d a csr (some fun _ x => x)).finish

/-- CSRS: new := old OR g_a (R232). -/
def execCsrs (d a : Reg) (csr : BitVec 12) (s : State) : Host.Outcome State Fault Refusal :=
  (s.csrOp 2 d a csr (some fun old x => old ||| x)).finish

/-- CSRC: new := old AND NOT g_a (R232). -/
def execCsrc (d a : Reg) (csr : BitVec 12) (s : State) : Host.Outcome State Fault Refusal :=
  (s.csrOp 3 d a csr (some fun old x => old &&& ~~~x)).finish

end Sys2Proof.Machine
end

