-- ==== Sys2Proof/Machine/Float.lean ====
section
/-!
DEFINITION. Number formats and exact arithmetic: R71 to R75, R77, R79, R80, R82, R127. Values are exact dyadic numbers;
each result is rounded once.
-/

namespace Sys2Proof.Machine

/-! ## Formats (R71) -/

/-- Which codes of a format are NaN. -/
inductive NanCodes where
  | ieee | allOnes | none
deriving DecidableEq, Repr

/-- A floating-point format (R71): widths of sign, exponent and mantissa, bias, infinities, NaN codes, and the low bits
of the container that are ignored (R72). -/
structure Fmt where
  s : Nat
  e : Nat
  m : Nat
  bias : Int
  inf : Bool
  nan : NanCodes
  pad : Nat
deriving DecidableEq, Repr

/-- FP64. -/
def fp64 : Fmt := { s := 1, e := 11, m := 52, bias := 1023, inf := true, nan := .ieee, pad := 0 }
/-- FP32. -/
def fp32 : Fmt := { s := 1, e := 8, m := 23, bias := 127, inf := true, nan := .ieee, pad := 0 }
/-- TF32, in its 32-bit container (R72). -/
def tf32 : Fmt := { s := 1, e := 8, m := 10, bias := 127, inf := true, nan := .ieee, pad := 13 }
/-- BF16. -/
def bf16 : Fmt := { s := 1, e := 8, m := 7, bias := 127, inf := true, nan := .ieee, pad := 0 }
/-- FP16. -/
def fp16 : Fmt := { s := 1, e := 5, m := 10, bias := 15, inf := true, nan := .ieee, pad := 0 }
/-- E5M2. -/
def e5m2 : Fmt := { s := 1, e := 5, m := 2, bias := 15, inf := true, nan := .ieee, pad := 0 }
/-- E4M3: no infinities; only 0x7F and 0xFF are NaN. -/
def e4m3 : Fmt := { s := 1, e := 4, m := 3, bias := 7, inf := false, nan := .allOnes, pad := 0 }
/-- E3M2. -/
def e3m2 : Fmt := { s := 1, e := 3, m := 2, bias := 3, inf := false, nan := .none, pad := 0 }
/-- E2M3. -/
def e2m3 : Fmt := { s := 1, e := 2, m := 3, bias := 1, inf := false, nan := .none, pad := 0 }
/-- E2M1. -/
def e2m1 : Fmt := { s := 1, e := 2, m := 1, bias := 1, inf := false, nan := .none, pad := 0 }
/-- E3M5, the unsigned block scale; only 0xFF is NaN. -/
def e3m5 : Fmt := { s := 0, e := 3, m := 5, bias := 3, inf := false, nan := .allOnes, pad := 0 }

/-- The width of a format's container. -/
def Fmt.bits (f : Fmt) : Nat := f.s + f.e + f.m + f.pad

/-- An exact value: NaN, an infinity, or (-1)^neg × m × 2^e. -/
inductive FVal where
  | nan
  | inf (neg : Bool)
  | fin (neg : Bool) (m : Nat) (e : Int)
deriving DecidableEq, Repr

/-- +0. -/
def FVal.zero : FVal := .fin false 0 0

/-- Decode(x, F) of R73. -/
def Fmt.decode (f : Fmt) (x : Nat) : FVal :=
  let x := x >>> f.pad
  let neg := f.s == 1 && x.testBit (f.e + f.m)
  let ex := (x >>> f.m) % 2 ^ f.e
  let mt := x % 2 ^ f.m
  let top := 2 ^ f.e - 1
  let isNan := match f.nan with
    | .ieee => ex == top && mt != 0
    | .allOnes => ex == top && mt == 2 ^ f.m - 1
    | .none => false
  if isNan then .nan
  else if f.inf && ex == top then .inf neg
  else if ex = 0 then .fin neg mt (1 - f.bias - f.m)
  else .fin neg (2 ^ f.m + mt) (ex - f.bias - f.m)

/-- The magnitude code of the largest finite value of a format. -/
def Fmt.maxCode (f : Fmt) : Nat :=
  if f.inf then (2 ^ f.e - 1) * 2 ^ f.m - 1
  else match f.nan with
    | .allOnes => 2 ^ (f.e + f.m) - 2
    | _ => 2 ^ (f.e + f.m) - 1

/-- The canonical NaN of a format (R74); +0 for a format that has none (R80). -/
def Fmt.nanCode (f : Fmt) : Nat :=
  match f.nan with
  | .ieee => ((2 ^ f.e - 1) * 2 ^ f.m + 2 ^ (f.m - 1)) <<< f.pad
  | .allOnes => 2 ^ (f.e + f.m) - 1
  | .none => 0

/-- A signed code in its container. -/
def Fmt.pack (f : Fmt) (neg : Bool) (code : Nat) : Nat :=
  ((if neg && f.s == 1 then 2 ^ (f.e + f.m) else 0) + code) <<< f.pad

/-- The code of an infinity. -/
def Fmt.infCode (f : Fmt) (neg : Bool) : Nat := f.pack neg ((2 ^ f.e - 1) * 2 ^ f.m)

/-! ## Rounding (R77, R79) -/

/-- The rounding modes of R77; sr carries the 24 random bits of R82. -/
inductive RMode where
  | rne | rtz | rup | rdn | rna
  | sr (r : Nat)
deriving DecidableEq, Repr

/-- The mode that VCFG.RM names for operations that are not narrowing conversions: SR as RNE (R77, R78). -/
def rmode (rm : BitVec 3) : RMode :=
  match rm.toNat with
  | 1 => .rtz | 2 => .rup | 3 => .rdn | 4 => .rna | _ => .rne

/-- The magnitude m × 2^-sh rounded to an integer, and whether that is inexact. -/
def roundShift (mode : RMode) (neg : Bool) (m : Nat) (sh : Int) : Nat × Bool :=
  if sh ≤ 0 then (m * 2 ^ (-sh).toNat, false)
  else
    let k := 2 ^ sh.toNat
    let n := m / k
    let r := m % k
    let up := match mode with
      | .rne => decide (2 * r > k) || (decide (2 * r = k) && n % 2 == 1)
      | .rtz => false
      | .rup => !neg && r != 0
      | .rdn => neg && r != 0
      | .rna => decide (2 * r ≥ k)
      | .sr q => r != 0 && (if neg then decide (¬ q < (k - r) * 2 ^ 24 / k) else decide (q < r * 2 ^ 24 / k))
    (if up then n + 1 else n, r != 0)

/-- What rounding a finite magnitude into a format gives: the magnitude code with exponents unbounded above (it passes
maxCode exactly when the value does), whether it is inexact, and whether it is tiny after rounding (R79, R80). -/
def Fmt.roundMag (f : Fmt) (mode : RMode) (neg : Bool) (m : Nat) (e : Int) : Nat × Bool × Bool :=
  if m = 0 then (0, false, false) else
  let qmin : Int := 1 - f.bias - f.m
  let q0 : Int := (bitLength m : Int) - 1 + e - f.m
  let q := max qmin q0
  let r := roundShift mode neg m (q - e)
  let r' := roundShift mode neg m (q0 - e)
  let tiny := decide (q0 < 1 - f.bias) && decide (r'.1 < 2 ^ (1 - f.bias - q0).toNat)
  ((q - qmin).toNat * 2 ^ f.m + r.1, r.2, tiny)

/-- The flags of an inexact or tiny result. -/
def roundFlags (inexact tiny : Bool) : Flags :=
  if inexact then (if tiny then flagNX ||| flagUF else flagNX) else 0

/-- Round(x, F) of R114 for arithmetic: the code and the flags; overflow as IEEE 754-2019 gives it (R79). -/
def Fmt.round (f : Fmt) (mode : RMode) (x : FVal) : Nat × Flags :=
  match x with
  | .nan => (f.nanCode, 0)
  | .inf neg => (f.infCode neg, 0)
  | .fin neg m e =>
    let r := f.roundMag mode neg m e
    if r.1 ≤ f.maxCode then (f.pack neg r.1, roundFlags r.2.1 r.2.2)
    else
      let toInf := match mode with
        | .rtz => false
        | .rup => !neg
        | .rdn => neg
        | _ => true
      (if toInf then f.infCode neg else f.pack neg f.maxCode, flagOF ||| flagNX)

/-- What a narrowing gives: the code, the element's m7 bit and the flags (R80). -/
structure Narrowed where
  code : Nat
  sat : Bool
  flags : Flags
deriving DecidableEq, Repr

/-- Sat(x, F) of R80 for a floating-point format. -/
def Fmt.sat (f : Fmt) (mode : RMode) (x : FVal) : Narrowed :=
  match x with
  | .nan => if f.nan = .none then { code := 0, sat := true, flags := flagNV } else { code := f.nanCode, sat := false, flags := 0 }
  | .inf neg =>
    if f.inf then { code := f.infCode neg, sat := false, flags := 0 }
    else { code := f.pack neg f.maxCode, sat := true, flags := flagSAT }
  | .fin neg m e =>
    let r := f.roundMag mode neg m e
    if r.1 ≤ f.maxCode then { code := f.pack neg r.1, sat := false, flags := roundFlags r.2.1 r.2.2 }
    else { code := f.pack neg f.maxCode, sat := true, flags := flagSAT }

/-- The least and greatest integers of a width (R75). -/
def intMin (signed : Bool) (w : Nat) : Int := if signed then -(2 ^ (w - 1)) else 0

/-- The greatest integer of a width (R75). -/
def intMax (signed : Bool) (w : Nat) : Int := if signed then 2 ^ (w - 1) - 1 else 2 ^ w - 1

/-- The w-bit code of an integer. -/
def intCode (w : Nat) (x : Int) : Nat := (x % 2 ^ w).toNat

/-- Sat(x, F) of R80 for an integer format of width w. -/
def satInt (signed : Bool) (w : Nat) (mode : RMode) (x : FVal) : Narrowed :=
  match x with
  | .nan => { code := 0, sat := true, flags := flagNV }
  | .inf neg => { code := intCode w (if neg then intMin signed w else intMax signed w), sat := true, flags := flagSAT }
  | .fin neg m e =>
    let r := roundShift mode neg m (-e)
    let v : Int := if neg then -(r.1 : Int) else r.1
    if intMin signed w ≤ v ∧ v ≤ intMax signed w then
      { code := intCode w v, sat := false, flags := if r.2 then flagNX else 0 }
    else { code := intCode w (if v < 0 then intMin signed w else intMax signed w), sat := true, flags := flagSAT }

/-- The exact value of an integer. -/
def FVal.ofInt (x : Int) : FVal := .fin (decide (x < 0)) x.natAbs 0

/-- The integer that a w-bit code holds. -/
def intOf (signed : Bool) (w x : Nat) : Int :=
  let x := x % 2 ^ w
  if signed && x.testBit (w - 1) then (x : Int) - 2 ^ w else x

/-! ## Exact operations (R74, R79) -/

/-- The value with its sign inverted. -/
def FVal.neg : FVal → FVal
  | .nan => .nan
  | .inf n => .inf !n
  | .fin n m e => .fin (!n) m e

/-- The signed integer that a finite value is in units of 2^u. -/
def unitsOf (neg : Bool) (m : Nat) (e u : Int) : Int :=
  let x : Int := m * 2 ^ (e - u).toNat
  if neg then -x else x

/-- The exact sum, and whether it makes NaN of non-NaN inputs. An exact zero sum of opposite signs is +0, or -0 under
RDN (R79). -/
def FVal.add (mode : RMode) (a b : FVal) : FVal × Bool :=
  match a, b with
  | .nan, _ => (.nan, false)
  | _, .nan => (.nan, false)
  | .inf x, .inf y => if x = y then (.inf x, false) else (.nan, true)
  | .inf x, .fin _ _ _ => (.inf x, false)
  | .fin _ _ _, .inf y => (.inf y, false)
  | .fin x m e, .fin y n d =>
    let u := min e d
    let v := unitsOf x m e u + unitsOf y n d u
    if v = 0 then (.fin (if x = y then x else mode == .rdn) 0 0, false)
    else (.fin (decide (v < 0)) v.natAbs u, false)

/-- The exact product, and whether it makes NaN of non-NaN inputs. -/
def FVal.mul (a b : FVal) : FVal × Bool :=
  match a, b with
  | .nan, _ => (.nan, false)
  | _, .nan => (.nan, false)
  | .inf x, .inf y => (.inf (x != y), false)
  | .inf x, .fin y n _ => if n = 0 then (.nan, true) else (.inf (x != y), false)
  | .fin x m _, .inf y => if m = 0 then (.nan, true) else (.inf (x != y), false)
  | .fin x m e, .fin y n d => (.fin (x != y) (m * n) (e + d), false)

/-- A value close enough to an exact quotient or root to round as it does: n × 2^e when exact, otherwise between that
and the next, marked by one more bit. -/
def stickied (neg : Bool) (n : Nat) (exact_ : Bool) (e : Int) : FVal := .fin neg (2 * n + if exact_ then 0 else 1) (e - 1)

/-- The quotient to at least 56 bits, and the flags NV and DZ (R127). -/
def FVal.div (a b : FVal) : FVal × Flags :=
  match a, b with
  | .nan, _ => (.nan, 0)
  | _, .nan => (.nan, 0)
  | .inf _, .inf _ => (.nan, flagNV)
  | .inf x, .fin y _ _ => (.inf (x != y), 0)
  | .fin x _ _, .inf y => (.fin (x != y) 0 0, 0)
  | .fin x m e, .fin y n d =>
    if n = 0 then (if m = 0 then (.nan, flagNV) else (.inf (x != y), flagDZ))
    else
      let k := 56 + bitLength n
      (stickied (x != y) ((m <<< k) / n) ((m <<< k) % n == 0) (e - d - k), 0)

/-- The integer square root of n, bit by bit from bit i - 1 down, added to r. -/
def sqrtBits (n : Nat) : Nat → Nat → Nat
  | 0, r => r
  | i + 1, r => sqrtBits n i (if (r + 2 ^ i) * (r + 2 ^ i) ≤ n then r + 2 ^ i else r)

/-- The square root to at least 56 bits, and whether it makes NaN of a non-NaN input (R127). -/
def FVal.sqrt (a : FVal) : FVal × Bool :=
  match a with
  | .nan => (.nan, false)
  | .inf neg => if neg then (.nan, true) else (.inf false, false)
  | .fin neg m e =>
    if m = 0 then (.fin neg 0 0, false)
    else if neg then (.nan, true)
    else
      let k := 120 + (e % 2).toNat
      let x := m <<< k
      let r := sqrtBits x (bitLength x / 2 + 1) 0
      (stickied false r (r * r == x) ((e - k) / 2), false)

/-- a < b for non-NaN values; -0 equals +0. -/
def FVal.lt (a b : FVal) : Bool :=
  match a, b with
  | .nan, _ => false
  | _, .nan => false
  | .inf x, .inf y => x && !y
  | .inf x, .fin _ _ _ => x
  | .fin _ _ _, .inf y => !y
  | .fin x m e, .fin y n d => decide (unitsOf x m e (min e d) < unitsOf y n d (min e d))

/-- a = b for non-NaN values; -0 equals +0. -/
def FVal.eq (a b : FVal) : Bool := a != .nan && b != .nan && !a.lt b && !b.lt a

/-- Whether a value is NaN. -/
def FVal.isNan (a : FVal) : Bool := a == .nan

/-- The sign of a value; false for NaN. -/
def FVal.sign : FVal → Bool
  | .nan => false
  | .inf n => n
  | .fin n _ _ => n

/-- The smaller; min(-0, +0) is -0; NaN if either is NaN (R127). -/
def FVal.minimum (a b : FVal) : FVal :=
  if a.isNan || b.isNan then .nan else if a.lt b then a else if b.lt a then b else if a.sign then a else b

/-- The larger; max(-0, +0) is +0; NaN if either is NaN (R127). -/
def FVal.maximum (a b : FVal) : FVal :=
  if a.isNan || b.isNan then .nan else if a.lt b then b else if b.lt a then a else if a.sign then b else a

/-- The exact sum of a list, RNE's rule for a zero sum, and whether it makes NaN of non-NaN inputs (R79, R88). -/
def exactSum (mode : RMode) : List FVal → FVal × Bool
  | [] => (.zero, false)
  | [x] => (x, false)
  | x :: r =>
    let y := exactSum mode r
    let z := FVal.add mode x y.1
    (z.1, y.2 || z.2)

/-- The NV flag of an operation that made NaN. -/
def nvIf (b : Bool) : Flags := if b then flagNV else 0

/-! ## The operations of R127 on codes of one format -/

/-- a + b rounded. -/
def Fmt.addF (f : Fmt) (mode : RMode) (a b : Nat) : Nat × Flags :=
  let x := FVal.add mode (f.decode a) (f.decode b)
  let r := f.round mode x.1
  (r.1, r.2 ||| nvIf x.2)

/-- a - b rounded. -/
def Fmt.subF (f : Fmt) (mode : RMode) (a b : Nat) : Nat × Flags :=
  let x := FVal.add mode (f.decode a) (f.decode b).neg
  let r := f.round mode x.1
  (r.1, r.2 ||| nvIf x.2)

/-- a × b rounded. -/
def Fmt.mulF (f : Fmt) (mode : RMode) (a b : Nat) : Nat × Flags :=
  let x := FVal.mul (f.decode a) (f.decode b)
  let r := f.round mode x.1
  (r.1, r.2 ||| nvIf x.2)

/-- a ÷ b rounded, with the cases of FDIV. -/
def Fmt.divF (f : Fmt) (mode : RMode) (a b : Nat) : Nat × Flags :=
  let x := FVal.div (f.decode a) (f.decode b)
  let r := f.round mode x.1
  (r.1, r.2 ||| x.2)

/-- √a rounded, with the cases of FSQRT. -/
def Fmt.sqrtF (f : Fmt) (mode : RMode) (a : Nat) : Nat × Flags :=
  let x := FVal.sqrt (f.decode a)
  let r := f.round mode x.1
  (r.1, r.2 ||| nvIf x.2)

/-- a × b + c in one rounding, each of the values given exactly. -/
def Fmt.fmaV (f : Fmt) (mode : RMode) (a b c : FVal) : Nat × Flags :=
  let p := FVal.mul a b
  let x := FVal.add mode p.1 c
  let r := f.round mode x.1
  (r.1, r.2 ||| nvIf ((p.2 && !c.isNan) || x.2))

/-- The smaller of two codes. -/
def Fmt.minF (f : Fmt) (a b : Nat) : Nat := (f.round .rne ((f.decode a).minimum (f.decode b))).1

/-- The larger of two codes. -/
def Fmt.maxF (f : Fmt) (a b : Nat) : Nat := (f.round .rne ((f.decode a).maximum (f.decode b))).1

/-- The kind mask of R128. -/
def Fmt.kind (f : Fmt) (a : Nat) : Nat :=
  let normal (m : Nat) : Bool := decide (2 ^ f.m ≤ m)
  match f.decode a with
  | .nan => 0x100
  | .inf true => 0x001
  | .inf false => 0x080
  | .fin true m _ => if m = 0 then 0x008 else if normal m then 0x002 else 0x004
  | .fin false m _ => if m = 0 then 0x010 else if normal m then 0x040 else 0x020

/-- a with the sign of b, or with its inverse; every other bit of a is copied (R127). -/
def Fmt.copySign (f : Fmt) (inverse : Bool) (a b : Nat) : Nat :=
  let k := 2 ^ (f.bits - 1)
  a % k + if ((b / k) % 2 == 1) != inverse then k else 0

/-! ## Stochastic rounding (R82) -/

/-- The 24 random bits of element e. -/
def srBits (seed ctr : Word) (e : Nat) : Nat :=
  let z : Word := seed ^^^ (ctr * 0x9E3779B97F4A7C15) ^^^ BitVec.ofNat 64 e
  let z := (z ^^^ (z >>> 30)) * 0xBF58476D1CE4E5B9
  let z := (z ^^^ (z >>> 27)) * 0x94D049BB133111EB
  let z := z ^^^ (z >>> 31)
  field z 40 24

end Sys2Proof.Machine
end

