-- ==== Sys2Proof/Machine/ScalarFp.lean ====
section
/-!
DEFINITION. Scalar floating point, major 0x0E: R126 to R129. No condition traps; flags go into STATUS.FFLAGS.
-/

namespace Sys2Proof.Machine

/-- The format that the P bit names (R127). -/
def precFmt : FPrec → Fmt
  | .f64 => fp64
  | .f32 => fp32

/-- The code that a g register holds in a precision: FP32 ignores bits [63:32] (R126). -/
def fpCode (p : FPrec) (x : Word) : Nat := field x 0 (precFmt p).bits

/-- The code of g register r in a precision. -/
def State.fpReg (s : State) (p : FPrec) (r : Reg) : Nat := fpCode p (s.readG r)

/-- The rounding mode of scalar floating point: VCFG.RM, SR as RNE (R78). -/
def State.mode (s : State) : RMode := rmode s.me.rm

/-- A code, zero-extended, into g register d, with flags raised; next instruction (R126). -/
def State.fpNext (s : State) (d : Reg) (r : Nat × Flags) : Host.Outcome State Fault Refusal :=
  (s.raiseScalar r.2).setNext d (BitVec.ofNat 64 r.1)

/-- A two-operand operation on codes of the form's format. -/
def State.fpBinary (s : State) (p : FPrec) (d a b : Reg) (f : Fmt → RMode → Nat → Nat → Nat × Flags) :
    Host.Outcome State Fault Refusal :=
  s.fpNext d (f (precFmt p) s.mode (s.fpReg p a) (s.fpReg p b))

/-- A one-operand operation on codes of the form's format. -/
def State.fpUnary (s : State) (p : FPrec) (d a : Reg) (f : Fmt → RMode → Nat → Nat × Flags) :
    Host.Outcome State Fault Refusal :=
  s.fpNext d (f (precFmt p) s.mode (s.fpReg p a))

/-- a × b + d with one rounding, or a × b − d with sub (R127). -/
def State.fpFused (s : State) (p : FPrec) (d a b : Reg) (sub : Bool) : Host.Outcome State Fault Refusal :=
  let f := precFmt p
  let c := f.decode (s.fpReg p d)
  s.fpNext d (f.fmaV s.mode (f.decode (s.fpReg p a)) (f.decode (s.fpReg p b)) (if sub then c.neg else c))

/-- A comparison: 1 or 0, with NV for a NaN operand where nv says so (R128). -/
def Fmt.compare (f : Fmt) (nv : Bool) (rel : FVal → FVal → Bool) (a b : Nat) : Nat × Flags :=
  let x := f.decode a
  let y := f.decode b
  if x.isNan || y.isNan then (0, nvIf nv) else (if rel x y then 1 else 0, 0)

/-- FADD (R127). -/
def execFadd (p : FPrec) (d a b : Reg) (s : State) : Host.Outcome State Fault Refusal := s.fpBinary p d a b Fmt.addF

/-- FSUB (R127). -/
def execFsub (p : FPrec) (d a b : Reg) (s : State) : Host.Outcome State Fault Refusal := s.fpBinary p d a b Fmt.subF

/-- FMUL (R127). -/
def execFmul (p : FPrec) (d a b : Reg) (s : State) : Host.Outcome State Fault Refusal := s.fpBinary p d a b Fmt.mulF

/-- FDIV (R127). -/
def execFdiv (p : FPrec) (d a b : Reg) (s : State) : Host.Outcome State Fault Refusal := s.fpBinary p d a b Fmt.divF

/-- FSQRT (R127). -/
def execFsqrt (p : FPrec) (d a : Reg) (s : State) : Host.Outcome State Fault Refusal := s.fpUnary p d a Fmt.sqrtF

/-- FMIN (R127). -/
def execFmin (p : FPrec) (d a b : Reg) (s : State) : Host.Outcome State Fault Refusal :=
  s.fpBinary p d a b fun f _ x y => (f.minF x y, 0)

/-- FMAX (R127). -/
def execFmax (p : FPrec) (d a b : Reg) (s : State) : Host.Outcome State Fault Refusal :=
  s.fpBinary p d a b fun f _ x y => (f.maxF x y, 0)

/-- FMAC: a × b + d (R127). -/
def execFmac (p : FPrec) (d a b : Reg) (s : State) : Host.Outcome State Fault Refusal := s.fpFused p d a b false

/-- FMSC: a × b − d (R127). -/
def execFmsc (p : FPrec) (d a b : Reg) (s : State) : Host.Outcome State Fault Refusal := s.fpFused p d a b true

/-- FCMPEQ; a NaN operand gives 0 and no flag (R128). -/
def execFcmpeq (p : FPrec) (d a b : Reg) (s : State) : Host.Outcome State Fault Refusal :=
  s.fpBinary p d a b fun f _ => f.compare false FVal.eq

/-- FCMPLT; a NaN operand gives 0 and raises NV (R128). -/
def execFcmplt (p : FPrec) (d a b : Reg) (s : State) : Host.Outcome State Fault Refusal :=
  s.fpBinary p d a b fun f _ => f.compare true FVal.lt

/-- FCMPLE; a NaN operand gives 0 and raises NV (R128). -/
def execFcmple (p : FPrec) (d a b : Reg) (s : State) : Host.Outcome State Fault Refusal :=
  s.fpBinary p d a b fun f _ => f.compare true fun x y => !y.lt x

/-- FKIND: the kind mask, no flag (R128). -/
def execFkind (p : FPrec) (d a : Reg) (s : State) : Host.Outcome State Fault Refusal :=
  s.fpUnary p d a fun f _ x => (f.kind x, 0)

/-- A narrowing into a 64-bit integer, in the mode of VCFG or, with rtz, toward zero (R129). -/
def State.fpToInt (s : State) (p : FPrec) (rtz signed : Bool) (d a : Reg) : Host.Outcome State Fault Refusal :=
  let r := satInt signed 64 (if rtz then .rtz else s.mode) ((precFmt p).decode (s.fpReg p a))
  s.fpNext d (r.code, r.flags)

/-- FCVTI (R129). -/
def execFcvti (p : FPrec) (rtz : Bool) (d a : Reg) (s : State) : Host.Outcome State Fault Refusal :=
  s.fpToInt p rtz true d a

/-- FCVTIU (R129). -/
def execFcvtiu (p : FPrec) (rtz : Bool) (d a : Reg) (s : State) : Host.Outcome State Fault Refusal :=
  s.fpToInt p rtz false d a

/-- FCVTF: a signed integer rounded into the format (R127). -/
def execFcvtf (p : FPrec) (d a : Reg) (s : State) : Host.Outcome State Fault Refusal :=
  s.fpNext d ((precFmt p).round s.mode (.ofInt (s.readG a).toInt))

/-- FCVTFU: an unsigned integer rounded into the format (R127). -/
def execFcvtfu (p : FPrec) (d a : Reg) (s : State) : Host.Outcome State Fault Refusal :=
  s.fpNext d ((precFmt p).round s.mode (.ofInt (s.readG a).toNat))

/-- FCVTP: .f64 widens an FP32 exactly; .f32 narrows an FP64 by R80 (R127). -/
def execFcvtp (p : FPrec) (d a : Reg) (s : State) : Host.Outcome State Fault Refusal :=
  match p with
  | .f64 => s.fpNext d ((fp64.round .rne (fp32.decode (s.fpReg .f32 a))).1, 0)
  | .f32 =>
    let r := fp32.sat s.mode (fp64.decode (s.fpReg .f64 a))
    s.fpNext d (r.code, r.flags)

/-- FCOPYS: a with the sign of b; bits copied, no flag (R127). -/
def execFcopys (p : FPrec) (d a b : Reg) (s : State) : Host.Outcome State Fault Refusal :=
  s.fpBinary p d a b fun f _ x y => (f.copySign false x y, 0)

/-- FCOPYSN: a with the inverse of the sign of b; bits copied, no flag (R127). -/
def execFcopysn (p : FPrec) (d a b : Reg) (s : State) : Host.Outcome State Fault Refusal :=
  s.fpBinary p d a b fun f _ x y => (f.copySign true x y, 0)

end Sys2Proof.Machine
end

