-- ==== Sys2Proof/Machine/Vector.lean ====
section
/-!
DEFINITION. What the vector instructions share: elements in registers and lanes (R139), the active elements (R114), the
shape of an instruction (R140, R147), and the allocation of lane groups (R33, R144).
-/

namespace Sys2Proof.Machine

/-! ## Types (R98) -/

/-- The width of an integer type. -/
def intW : IntTy → Nat
  | .s64 | .n64 => 64 | .s32 | .n32 => 32 | .s16 | .n16 => 16 | .s8 | .n8 => 8

/-- Whether an integer type is signed. -/
def intS : IntTy → Bool
  | .s64 | .s32 | .s16 | .s8 => true
  | _ => false

/-- The format of a floating type (R154). -/
def fmtOf : FTy → Fmt
  | .f64 => fp64 | .f32 => fp32 | .bf16 => bf16 | .f16 => fp16

/-- The width in bits of a VM width code (R98). -/
def widthBits : Width → Nat
  | .w8 => 8 | .w16 => 16 | .w32 => 32 | .w64 => 64 | .w4 => 4 | .w6 => 6

/-! ## Lengths (R114, R146) -/

/-- VLMAX(n, w) of R114. -/
def vlmax (n w : Nat) : Nat := if w = 6 then 4 * (n * 2048 / 24) else n * 2048 / w

/-- The number of lane groups that the issuing strand holds. -/
def State.held (s : State) : Nat := (s.groupsOf s.cur).length

/-- VL as an instruction sees it: 0 while the strand holds no lane group (R146). -/
def State.vlen (s : State) : Nat := if s.held = 0 then 0 else s.me.vl

/-- VCFG.EW in bits. -/
def State.ewBits (s : State) : Nat := widthBits s.me.ew

/-! ## Elements and masks -/

/-- Element e of width w of a register's string (R139). -/
def elemOf (v : VReg) (w e : Nat) : Nat := field v (w * e) w

/-- The register with element e of width w replaced. -/
def setElem (v : VReg) (w e x : Nat) : VReg := setField v (w * e) w x

/-- v register r of the issuing strand. -/
def State.vreg (s : State) (r : Reg) : VReg := s.me.v.getD r.toNat 0

/-- Element e of width w of v register r. -/
def State.elem (s : State) (r : Reg) (w e : Nat) : Nat := elemOf (s.vreg r) w e

/-- Mask register m of the issuing strand. -/
def State.mask (s : State) (m : MReg) : Mask := s.me.m.getD m.toNat 0

/-- The active elements below n under a mask field, in ascending order: Active(e) of R114. -/
def State.activeBelow (s : State) (k : VMask) (n : Nat) : List Nat :=
  (List.range n).filter fun e => !k.on || (s.mask k.num).getLsbD e

/-- The active elements below VL. -/
def State.actives (s : State) (k : VMask) : List Nat := s.activeBelow k s.vlen

/-- The strand with v register r written, and busy in VPI (R143). -/
def Strand.writeV (x : Strand) (r : Reg) (v : VReg) : Strand :=
  { x with v := x.v.setIfInBounds r.toNat v, vpi := x.vpi ||| (1 <<< r.toNat) }

/-- The state with v register r of the issuing strand written. -/
def State.setV (s : State) (r : Reg) (v : VReg) : State := s.mapMe fun x => x.writeV r v

/-- The state with mask register m of the issuing strand written. -/
def State.setM (s : State) (m : MReg) (v : Mask) : State :=
  s.mapMe fun x => { x with m := x.m.setIfInBounds m.toNat v }

/-- The lane that holds element e of width w: the one with its lowest bit (R139). -/
def laneOf (groups : List Nat) (w e : Nat) : Nat :=
  4 * groups.getD (w * e / 2048) 0 + (w * e % 2048) / 64 % 4

/-- The slot that holds element e of width w (R139). -/
def slotOf (w e : Nat) : Nat := w * e / 2048

/-- The state with flags raised in the lane of each listed element (R93). -/
def State.raiseElems (s : State) (w : Nat) (l : List (Nat × Flags)) : State :=
  let g := s.groupsOf s.cur
  l.foldl (fun s x => s.raiseLane (laneOf g w x.1) x.2) s

/-! ## Checks -/

/-- Vector State with no address field named by the manual: a free value (log 15). -/
def State.vectorState {α : Type} (s : State) : Res α := .trap (Trap.sync 0x09 s.free.1) s.free.2

/-- The width check of R99. -/
def State.needEw (s : State) (w : Nat) : Res Unit := if s.ewBits = w then .ok () s else s.vectorState

/-! ## Shapes (R140, R147) -/

/-- The state in which each active element e of d has the value and flags that f gives, all from the state before. -/
def State.mapElems (s : State) (d : Reg) (w : Nat) (k : VMask) (f : Nat → Nat × Flags) : State :=
  let r := (s.actives k).map fun e => (e, f e)
  let v := r.foldl (fun v x => setElem v w x.1 x.2.1) (s.vreg d)
  (s.setV d v).raiseElems w (r.map fun x => (x.1, x.2.2))

/-- An element-wise instruction of one width (R140, R147). -/
def State.elementwise (s : State) (d : Reg) (w : Nat) (k : VMask) (f : State → Nat → Nat × Flags) :
    Host.Outcome State Fault Refusal :=
  ((s.needEw w).bind fun _ s => .ok () (s.mapElems d w k (f s)).retire).finish

/-- A mask with its bits at the listed elements replaced. -/
def setBits (m : Mask) (l : List (Nat × Bool)) : Mask :=
  l.foldl (fun m x => setField m x.1 1 (if x.2 then 1 else 0)) m

/-- A compare: each active bit of mask d as f says, with flags raised in the element's lane (R153, R155). -/
def State.compareElems (s : State) (d : MReg) (w : Nat) (k : VMask) (f : State → Nat → Bool × Flags) :
    Host.Outcome State Fault Refusal :=
  ((s.needEw w).bind fun _ s =>
    let r := (s.actives k).map fun e => (e, f s e)
    .ok () ((s.setM d (setBits (s.mask d) (r.map fun x => (x.1, x.2.1)))).raiseElems w
      (r.map fun x => (x.1, x.2.2))).retire).finish

/-! ## SETVL (R33, R144) -/

/-- GroupsFor(AVL, w) of R114. -/
def groupsFor (avl w : Nat) : Nat :=
  if avl = 0 then 0 else (((List.range 8).map (· + 1)).find? fun n => avl ≤ vlmax n w).getD 8

/-- The strands that hold lane groups of tile t or are stalled there, in ascending order (R33). -/
def State.demand (s : State) (t : Nat) : List Nat :=
  (List.range 4).filter fun i =>
    let k := 4 * t + i
    !(s.groupsOf k).isEmpty || match (s.strand k).run with
      | .stalled _ _ _ => true
      | _ => false

/-- The number of groups that R33 allows strand k. -/
def State.setvlTarget (s : State) (k need : Nat) : Nat :=
  let t := tileOf k
  let d := (List.range 4).filter fun i => (s.demand t).contains i || i == k % 4
  if need = 0 then 0
  else if d = [k % 4] then min need ((s.groupsOf k).length + (s.tile t).freeGroups.length)
  else
    let pos := d.findIdx fun i => i == k % 4
    min need (8 / d.length + if pos < 8 % d.length then 1 else 0)

/-- The allocation of R33 for strand k: its groups released from the highest or taken from the lowest. -/
def State.allocate (s : State) (k need : Nat) : State :=
  let held := s.groupsOf k
  let target := s.setvlTarget k need
  let s' := (held.drop target).reverse.foldl (fun s j => s.releaseGroup k j) s
  ((s.tile (tileOf k)).freeGroups.take (target - held.length)).foldl (fun s j => s.takeGroup k j) s'

/-- The length granted: whole groups of four at width 6 (R144). -/
def grantedVl (avl n w : Nat) : Nat :=
  let v := min avl (vlmax n w)
  if w = 6 ∧ 4 ≤ v then 4 * (v / 4) else v

/-- The issuing strand's vector registers at zero and final when its set of groups has changed (R33, R143). -/
def Strand.regroup (x : Strand) (changed : Bool) : Strand :=
  if changed then { x with v := Vector.replicate 32 0, vpi := 0, partly := 0 } else x

/-- SETVL of strand k: granted and retired, or stalled. The vector queue is empty before it (R33, R144); what a load has left partly
written stays so while the groups stay (R143, R163). -/
def State.setvl (s : State) (k : Nat) (w : Width) (avl : Word) (d : Reg) : State :=
  let need := groupsFor avl.toNat (widthBits w)
  let s' := s.allocate k need
  let held := s'.groupsOf k
  if need ≠ 0 ∧ held = [] then s'.mapStrand k fun x => { x with run := .stalled w avl d }
  else
    let vl := grantedVl avl.toNat held.length (widthBits w)
    s'.mapStrand k fun x =>
      let x := (x.regroup (held != s.groupsOf k)).writeG d (BitVec.ofNat 64 vl)
      { x.retired with run := .running, vl := vl, ew := w, vpi := 0, pc := x.pc + 4 }

/-- SETVL with its check for a pre-emption request, which is delivered at user level only (R33, R239). -/
def State.setvlChecked (s : State) (k : Nat) (w : Width) (avl : Word) (d : Reg) : State :=
  let x := s.strand k
  match x.pend.preempt with
  | some (_, forced) =>
    if x.pl then s.setvl k w avl d
    else (s.mapStrand k fun x =>
      { x with pend := x.pend.served, reqAt := x.pend.preempt.map fun r => (r.1, r.2, true) }).enterTrapOf k
        (preemptTrap x forced)
  | none => s.setvl k w avl d

/-- Whether a word is a SETVL (R158). -/
def isSetvl (w : IWord) : Bool := field w 26 6 == 0x20 && field w 3 4 == 0

/-- SETVL (R144). Of strands that reach it in one cycle the lowest-numbered goes first (R20, R33). -/
def execSetvl (w : Width) (d a : Reg) (s : State) : Host.Outcome State Fault Refusal :=
  match s.before s.cur isSetvl true with
  | some m => .next (s.yieldTo m)
  | none => .next (s.setvlChecked s.cur w (s.readG a) d)

/-- A stalled strand tries its allocation again (R33). -/
def State.retrySetvl (s : State) (k : Nat) : State :=
  match (s.strand k).run with
  | .stalled w avl d => s.setvlChecked k w avl d
  | _ => s

/-- SETVL_RETRY: strand k tries its allocation again, after the stalled strands of its tile with lower numbers; while one with a lower
number is still to issue a SETVL in this cycle it does not: of those that reach it in one cycle the lowest-numbered goes first (R20,
R33). -/
def execSetvlRetry (k : Nat) (s : State) : Host.Outcome State Fault Refusal :=
  if (s.before k isSetvl false).isSome then .next s
  else .next ((List.range (k % 4 + 1)).foldl (fun s i => s.retrySetvl (4 * tileOf k + i)) s)

/-- VECTOR_QUEUE_ADVANCE: queued vector instructions of a strand complete, and the registers of which no writer is left are final;
which those are is open (R141, R143, log 16). -/
def execVectorQueueAdvance (k : Nat) (s : State) : Host.Outcome State Fault Refusal :=
  .next (s.free.2.mapStrand k fun x => { x with vpi := x.vpi &&& lo32 s.free.1 })

/-! ## Moves, major 0x20 (R149) -/

/-- VSPLAT (R149). -/
def execVsplat (t : IntTy) (d a : Reg) (k : VMask) (s : State) : Host.Outcome State Fault Refusal :=
  s.elementwise d (intW t) k fun s _ => (field (s.readG a) 0 (intW t), 0)

/-- VMVG: one element into a g register; VL is not consulted (R149). It waits until its source is final (R142, R143). -/
def execVmvg (t : IntTy) (d a b : Reg) (s : State) : Host.Outcome State Fault Refusal :=
  ((s.needEw (intW t)).bind fun _ s =>
    let i := (s.readG b).toNat
    let v := if i < vlmax s.held (intW t) then BitVec.ofInt 64 (intOf (intS t) (intW t) (s.elem a (intW t) i)) else 0
    .ok () ((s.mapMe fun x => { x with vpi := x.vpi &&& ~~~((1 : BitVec 32) <<< a.toNat) }).writeRetire d v)).finish

/-- VMVV: a g register into one element; VL is not consulted (R149). -/
def execVmvv (t : IntTy) (d a b : Reg) (s : State) : Host.Outcome State Fault Refusal :=
  ((s.needEw (intW t)).bind fun _ s =>
    let i := (s.readG b).toNat
    if i < vlmax s.held (intW t) then
      .ok () (s.setV d (setElem (s.vreg d) (intW t) i (field (s.readG a) 0 (intW t)))).retire
    else .ok () s.retire).finish

/-- VID (R149). -/
def execVid (t : IntTy) (d : Reg) (k : VMask) (s : State) : Host.Outcome State Fault Refusal :=
  s.elementwise d (intW t) k fun _ e => (e, 0)

/-- VMV (R149). -/
def execVmv (t : IntTy) (d a : Reg) (k : VMask) (s : State) : Host.Outcome State Fault Refusal :=
  s.elementwise d (intW t) k fun s e => (s.elem a (intW t) e, 0)

/-- VMERGE: below VL, from v_a where the mask is 1, else from v_b (R149). -/
def execVmerge (t : IntTy) (d a b : Reg) (mk : MReg) (s : State) : Host.Outcome State Fault Refusal :=
  s.elementwise d (intW t) { on := false, num := 0 } fun s e =>
    (if (s.mask mk).getLsbD e then s.elem a (intW t) e else s.elem b (intW t) e, 0)

/-! ## Masks, major 0x21 (R150) -/

/-- A mask logic row: the bits below VL replaced. -/
def State.maskLogic (s : State) (d : MReg) (f : Mask → Mask → Mask) (a b : MReg) : Host.Outcome State Fault Refusal :=
  let low : Mask := BitVec.ofNat 4096 (2 ^ s.vlen - 1)
  .next (s.setM d ((s.mask d &&& ~~~low) ||| (f (s.mask a) (s.mask b) &&& low))).retire

/-- MAND (R150). -/
def execMand (d a b : MReg) (s : State) : Host.Outcome State Fault Refusal := s.maskLogic d (fun x y => x &&& y) a b

/-- MOR (R150). -/
def execMor (d a b : MReg) (s : State) : Host.Outcome State Fault Refusal := s.maskLogic d (fun x y => x ||| y) a b

/-- MXOR (R150). -/
def execMxor (d a b : MReg) (s : State) : Host.Outcome State Fault Refusal := s.maskLogic d (fun x y => x ^^^ y) a b

/-- MANDN (R150). -/
def execMandn (d a b : MReg) (s : State) : Host.Outcome State Fault Refusal :=
  s.maskLogic d (fun x y => x &&& ~~~y) a b

/-- MORN (R150). -/
def execMorn (d a b : MReg) (s : State) : Host.Outcome State Fault Refusal := s.maskLogic d (fun x y => x ||| ~~~y) a b

/-- MNOT (R150). -/
def execMnot (d a : MReg) (s : State) : Host.Outcome State Fault Refusal := s.maskLogic d (fun x _ => ~~~x) a a

/-- MSET (R150). -/
def execMset (d : MReg) (s : State) : Host.Outcome State Fault Refusal :=
  s.maskLogic d (fun _ _ => BitVec.allOnes 4096) d d

/-- MCLR (R150). -/
def execMclr (d : MReg) (s : State) : Host.Outcome State Fault Refusal := s.maskLogic d (fun _ _ => 0) d d

/-- VFFS: the first active element whose bit is set; all ones if none (R150). -/
def execVffs (d : Reg) (a : MReg) (k : VMask) (s : State) : Host.Outcome State Fault Refusal :=
  s.setNext d (match (s.actives k).find? fun e => (s.mask a).getLsbD e with
    | some e => BitVec.ofNat 64 e
    | none => BitVec.allOnes 64)

/-- VPOPC: the number of active elements whose bit is set (R150). -/
def execVpopc (d : Reg) (a : MReg) (k : VMask) (s : State) : Host.Outcome State Fault Refusal :=
  s.setNext d (BitVec.ofNat 64 ((s.actives k).filter fun e => (s.mask a).getLsbD e).length)

/-- VMPREFIX: per active element, the set bits of m_a at active positions below it (R150). -/
def execVmprefix (t : IntTy) (d : Reg) (a : MReg) (k : VMask) (s : State) : Host.Outcome State Fault Refusal :=
  s.elementwise d (intW t) k fun s e =>
    (((s.activeBelow k e).filter fun i => (s.mask a).getLsbD i).length, 0)

end Sys2Proof.Machine
end

