-- ==== Sys2Proof/Machine/VecArith.lean ====
section
/-!
DEFINITION. Vector arithmetic on integers and floating point, compares and vector-scalar forms, majors 0x23 to 0x26 and
0x2A: R151 to R156.
-/

namespace Sys2Proof.Machine

/-! ## Integer arithmetic, major 0x23 (R151, R152) -/

/-- An element-wise integer instruction: f of the old destination and the two operands, read by type; the result wraps. -/
def State.vint (s : State) (t : IntTy) (d a b : Reg) (k : VMask) (f : Int → Int → Int → Int) :
    Host.Outcome State Fault Refusal :=
  let w := intW t
  let i := intOf (intS t) w
  s.elementwise d w k fun s e => (intCode w (f (i (s.elem d w e)) (i (s.elem a w e)) (i (s.elem b w e))), 0)

/-- An element-wise instruction on the operands' bits. -/
def State.vbits (s : State) (t : IntTy) (d a b : Reg) (k : VMask) (f : Nat → Nat → Nat) :
    Host.Outcome State Fault Refusal :=
  let w := intW t
  s.elementwise d w k fun s e => (f (s.elem a w e) (s.elem b w e), 0)

/-- The quotient of R152: -1 or 2^w - 1 for a zero divisor, otherwise toward zero. -/
def vquot (x y : Int) : Int := if y = 0 then -1 else x.tdiv y

/-- The remainder of R152: the dividend for a zero divisor, otherwise with its sign. -/
def vrem (x y : Int) : Int := if y = 0 then x else x.tmod y

/-- x shifted right by n: copies of the sign for a negative x. -/
def shiftRight (x : Int) (n : Nat) : Int := x / 2 ^ n

/-- x clipped to the range of a type, with SAT when clipped (R151). -/
def clip (t : IntTy) (x : Int) : Nat × Flags :=
  let w := intW t
  if x < intMin (intS t) w then (intCode w (intMin (intS t) w), flagSAT)
  else if intMax (intS t) w < x then (intCode w (intMax (intS t) w), flagSAT)
  else (intCode w x, 0)

/-- A saturating instruction: SAT is raised in the element's lane (R151). -/
def State.vsat (s : State) (t : IntTy) (d a b : Reg) (k : VMask) (f : Int → Int → Int) :
    Host.Outcome State Fault Refusal :=
  let w := intW t
  let i := intOf (intS t) w
  s.elementwise d w k fun s e => clip t (f (i (s.elem a w e)) (i (s.elem b w e)))


/-- VADD: a + b (R151). -/
def execVadd (t : IntTy) (d a b : Reg) (k : VMask) (s : State) : Host.Outcome State Fault Refusal :=
  s.vint t d a b k fun _ x y => x + y

/-- VSUB: a − b (R151). -/
def execVsub (t : IntTy) (d a b : Reg) (k : VMask) (s : State) : Host.Outcome State Fault Refusal :=
  s.vint t d a b k fun _ x y => x - y

/-- VMUL: a × b (R151). -/
def execVmul (t : IntTy) (d a b : Reg) (k : VMask) (s : State) : Host.Outcome State Fault Refusal :=
  s.vint t d a b k fun _ x y => x * y

/-- VMULH: the high w bits of the exact product (R151). -/
def execVmulh (t : IntTy) (d a b : Reg) (k : VMask) (s : State) : Host.Outcome State Fault Refusal :=
  s.vint t d a b k fun _ x y => (x * y) / 2 ^ intW t

/-- VDIV: the quotient of R152 (R151). -/
def execVdiv (t : IntTy) (d a b : Reg) (k : VMask) (s : State) : Host.Outcome State Fault Refusal :=
  s.vint t d a b k fun _ x y => vquot x y

/-- VREM: the remainder of R152 (R151). -/
def execVrem (t : IntTy) (d a b : Reg) (k : VMask) (s : State) : Host.Outcome State Fault Refusal :=
  s.vint t d a b k fun _ x y => vrem x y

/-- VMIN: the smaller (R151). -/
def execVmin (t : IntTy) (d a b : Reg) (k : VMask) (s : State) : Host.Outcome State Fault Refusal :=
  s.vint t d a b k fun _ x y => min x y

/-- VMAX: the larger (R151). -/
def execVmax (t : IntTy) (d a b : Reg) (k : VMask) (s : State) : Host.Outcome State Fault Refusal :=
  s.vint t d a b k fun _ x y => max x y

/-- VAND: a AND b (R151). -/
def execVand (t : IntTy) (d a b : Reg) (k : VMask) (s : State) : Host.Outcome State Fault Refusal :=
  s.vbits t d a b k fun x y => x &&& y

/-- VOR: a OR b (R151). -/
def execVor (t : IntTy) (d a b : Reg) (k : VMask) (s : State) : Host.Outcome State Fault Refusal :=
  s.vbits t d a b k fun x y => x ||| y

/-- VXOR: a XOR b (R151). -/
def execVxor (t : IntTy) (d a b : Reg) (k : VMask) (s : State) : Host.Outcome State Fault Refusal :=
  s.vbits t d a b k fun x y => x ^^^ y

/-- VSLL: a << (b mod w) (R151). -/
def execVsll (t : IntTy) (d a b : Reg) (k : VMask) (s : State) : Host.Outcome State Fault Refusal :=
  s.vbits t d a b k fun x y => x <<< (y % intW t)

/-- VSR: a >> (b mod w), by the type of a (R151). -/
def execVsr (t : IntTy) (d a b : Reg) (k : VMask) (s : State) : Host.Outcome State Fault Refusal :=
  s.vint t d a b k fun _ x y => shiftRight x (y % intW t).toNat

/-- VADDS: a + b clipped (R151). -/
def execVadds (t : IntTy) (d a b : Reg) (k : VMask) (s : State) : Host.Outcome State Fault Refusal :=
  s.vsat t d a b k fun x y => x + y

/-- VSUBS: a − b clipped (R151). -/
def execVsubs (t : IntTy) (d a b : Reg) (k : VMask) (s : State) : Host.Outcome State Fault Refusal :=
  s.vsat t d a b k fun x y => x - y

/-- VMAC: d + a × b (R151). -/
def execVmac (t : IntTy) (d a b : Reg) (k : VMask) (s : State) : Host.Outcome State Fault Refusal :=
  s.vint t d a b k fun z x y => z + x * y

/-! ## Integer compares, major 0x24 (R153) -/

/-- A compare of two operands read by type (R153). -/
def State.vcompare (s : State) (t : IntTy) (d : MReg) (a b : Reg) (k : VMask) (f : Int → Int → Bool) :
    Host.Outcome State Fault Refusal :=
  let w := intW t
  let i := intOf (intS t) w
  s.compareElems d w k fun s e => (f (i (s.elem a w e)) (i (s.elem b w e)), 0)

/-- VSEQ (R153). -/
def execVseq (t : IntTy) (d : MReg) (a b : Reg) (k : VMask) (s : State) : Host.Outcome State Fault Refusal :=
  s.vcompare t d a b k fun x y => decide (x = y)

/-- VSNE (R153). -/
def execVsne (t : IntTy) (d : MReg) (a b : Reg) (k : VMask) (s : State) : Host.Outcome State Fault Refusal :=
  s.vcompare t d a b k fun x y => decide (x ≠ y)

/-- VSLT (R153). -/
def execVslt (t : IntTy) (d : MReg) (a b : Reg) (k : VMask) (s : State) : Host.Outcome State Fault Refusal :=
  s.vcompare t d a b k fun x y => decide (x < y)

/-- VSLE (R153). -/
def execVsle (t : IntTy) (d : MReg) (a b : Reg) (k : VMask) (s : State) : Host.Outcome State Fault Refusal :=
  s.vcompare t d a b k fun x y => decide (x ≤ y)

/-- VSGT (R153). -/
def execVsgt (t : IntTy) (d : MReg) (a b : Reg) (k : VMask) (s : State) : Host.Outcome State Fault Refusal :=
  s.vcompare t d a b k fun x y => decide (y < x)

/-- VSGE (R153). -/
def execVsge (t : IntTy) (d : MReg) (a b : Reg) (k : VMask) (s : State) : Host.Outcome State Fault Refusal :=
  s.vcompare t d a b k fun x y => decide (y ≤ x)

/-! ## Floating-point arithmetic, major 0x25 (R154) -/

/-- An element-wise operation on two codes of the form's format. -/
def State.vfp (s : State) (t : FTy) (d a b : Reg) (k : VMask) (f : Fmt → RMode → Nat → Nat → Nat × Flags) :
    Host.Outcome State Fault Refusal :=
  let w := (fmtOf t).bits
  s.elementwise d w k fun s e => f (fmtOf t) s.mode (s.elem a w e) (s.elem b w e)

/-- d + a × b with one rounding, or d − a × b with sub (R154). -/
def State.vfused (s : State) (t : FTy) (d a b : Reg) (k : VMask) (sub : Bool) : Host.Outcome State Fault Refusal :=
  let f := fmtOf t
  let w := f.bits
  s.elementwise d w k fun s e =>
    let x := f.decode (s.elem a w e)
    f.fmaV s.mode (if sub then x.neg else x) (f.decode (s.elem b w e)) (f.decode (s.elem d w e))

/-- VFADD (R154). -/
def execVfadd (t : FTy) (d a b : Reg) (k : VMask) (s : State) : Host.Outcome State Fault Refusal :=
  s.vfp t d a b k Fmt.addF

/-- VFSUB (R154). -/
def execVfsub (t : FTy) (d a b : Reg) (k : VMask) (s : State) : Host.Outcome State Fault Refusal :=
  s.vfp t d a b k Fmt.subF

/-- VFMUL (R154). -/
def execVfmul (t : FTy) (d a b : Reg) (k : VMask) (s : State) : Host.Outcome State Fault Refusal :=
  s.vfp t d a b k Fmt.mulF

/-- VFDIV (R154). -/
def execVfdiv (t : FTy) (d a b : Reg) (k : VMask) (s : State) : Host.Outcome State Fault Refusal :=
  s.vfp t d a b k Fmt.divF

/-- VFSQRT (R154). -/
def execVfsqrt (t : FTy) (d a : Reg) (k : VMask) (s : State) : Host.Outcome State Fault Refusal :=
  s.vfp t d a a k fun f m x _ => f.sqrtF m x

/-- VFMIN (R154). -/
def execVfmin (t : FTy) (d a b : Reg) (k : VMask) (s : State) : Host.Outcome State Fault Refusal :=
  s.vfp t d a b k fun f _ x y => (f.minF x y, 0)

/-- VFMAX (R154). -/
def execVfmax (t : FTy) (d a b : Reg) (k : VMask) (s : State) : Host.Outcome State Fault Refusal :=
  s.vfp t d a b k fun f _ x y => (f.maxF x y, 0)

/-- VFMAC: d + a × b (R154). -/
def execVfmac (t : FTy) (d a b : Reg) (k : VMask) (s : State) : Host.Outcome State Fault Refusal :=
  s.vfused t d a b k false

/-- VFMSC: d − a × b (R154). -/
def execVfmsc (t : FTy) (d a b : Reg) (k : VMask) (s : State) : Host.Outcome State Fault Refusal :=
  s.vfused t d a b k true

/-- VFCOPYS: bits copied, no flag (R154). -/
def execVfcopys (t : FTy) (d a b : Reg) (k : VMask) (s : State) : Host.Outcome State Fault Refusal :=
  s.vfp t d a b k fun f _ x y => (f.copySign false x y, 0)

/-- VFCOPYSN: bits copied, no flag (R154). -/
def execVfcopysn (t : FTy) (d a b : Reg) (k : VMask) (s : State) : Host.Outcome State Fault Refusal :=
  s.vfp t d a b k fun f _ x y => (f.copySign true x y, 0)

/-! ## Floating-point compares and kinds, major 0x26 (R155) -/

/-- A compare of two codes; with a NaN operand the bit is onNan, and NV is raised where nv says so (R155). -/
def State.vfcompare (s : State) (t : FTy) (d : MReg) (a b : Reg) (k : VMask) (onNan nv : Bool)
    (f : FVal → FVal → Bool) : Host.Outcome State Fault Refusal :=
  let w := (fmtOf t).bits
  s.compareElems d w k fun s e =>
    let x := (fmtOf t).decode (s.elem a w e)
    let y := (fmtOf t).decode (s.elem b w e)
    if x.isNan || y.isNan then (onNan, nvIf nv) else (f x y, 0)

/-- VFCMPEQ (R155). -/
def execVfcmpeq (t : FTy) (d : MReg) (a b : Reg) (k : VMask) (s : State) : Host.Outcome State Fault Refusal :=
  s.vfcompare t d a b k false false FVal.eq

/-- VFCMPNE (R155). -/
def execVfcmpne (t : FTy) (d : MReg) (a b : Reg) (k : VMask) (s : State) : Host.Outcome State Fault Refusal :=
  s.vfcompare t d a b k true false fun x y => !x.eq y

/-- VFCMPLT (R155). -/
def execVfcmplt (t : FTy) (d : MReg) (a b : Reg) (k : VMask) (s : State) : Host.Outcome State Fault Refusal :=
  s.vfcompare t d a b k false true FVal.lt

/-- VFCMPLE (R155). -/
def execVfcmple (t : FTy) (d : MReg) (a b : Reg) (k : VMask) (s : State) : Host.Outcome State Fault Refusal :=
  s.vfcompare t d a b k false true fun x y => !y.lt x

/-- VFKIND: the kind mask of R128, no flag (R155). -/
def execVfkind (t : FTy) (d a : Reg) (k : VMask) (s : State) : Host.Outcome State Fault Refusal :=
  s.vfp t d a a k fun f _ x _ => (f.kind x, 0)

/-! ## Vector-scalar forms, major 0x2A (R156) -/

/-- An integer form with g_b[w-1:0], read by type, in place of v_b. -/
def State.vsInt (s : State) (t : IntTy) (d a b : Reg) (k : VMask) (f : Int → Int → Int) :
    Host.Outcome State Fault Refusal :=
  let w := intW t
  let i := intOf (intS t) w
  s.elementwise d w k fun s e => (intCode w (f (i (s.elem a w e)) (i (s.readG b).toNat)), 0)

/-- A form on the bits of the element and of g_b[w-1:0]. -/
def State.vsBits (s : State) (t : IntTy) (d a b : Reg) (k : VMask) (f : Nat → Nat → Nat) :
    Host.Outcome State Fault Refusal :=
  let w := intW t
  s.elementwise d w k fun s e => (f (s.elem a w e) (field (s.readG b) 0 w), 0)

/-- A floating form with the code g_b[w-1:0] in place of v_b. -/
def State.vsFp (s : State) (t : FTy) (d a b : Reg) (k : VMask) (f : Fmt → RMode → Nat → Nat → Nat × Flags) :
    Host.Outcome State Fault Refusal :=
  let w := (fmtOf t).bits
  s.elementwise d w k fun s e => f (fmtOf t) s.mode (s.elem a w e) (field (s.readG b) 0 w)

/-- VADD.VS: a + s (R156). -/
def execVaddVs (t : IntTy) (d a b : Reg) (k : VMask) (s : State) : Host.Outcome State Fault Refusal :=
  s.vsInt t d a b k fun x y => x + y

/-- VSUB.VS: a − s (R156). -/
def execVsubVs (t : IntTy) (d a b : Reg) (k : VMask) (s : State) : Host.Outcome State Fault Refusal :=
  s.vsInt t d a b k fun x y => x - y

/-- VRSUB.VS: s − a (R156). -/
def execVrsubVs (t : IntTy) (d a b : Reg) (k : VMask) (s : State) : Host.Outcome State Fault Refusal :=
  s.vsInt t d a b k fun x y => y - x

/-- VMUL.VS: a × s (R156). -/
def execVmulVs (t : IntTy) (d a b : Reg) (k : VMask) (s : State) : Host.Outcome State Fault Refusal :=
  s.vsInt t d a b k fun x y => x * y

/-- VMIN.VS (R156). -/
def execVminVs (t : IntTy) (d a b : Reg) (k : VMask) (s : State) : Host.Outcome State Fault Refusal :=
  s.vsInt t d a b k fun x y => min x y

/-- VMAX.VS (R156). -/
def execVmaxVs (t : IntTy) (d a b : Reg) (k : VMask) (s : State) : Host.Outcome State Fault Refusal :=
  s.vsInt t d a b k fun x y => max x y

/-- VAND.VS (R156). -/
def execVandVs (t : IntTy) (d a b : Reg) (k : VMask) (s : State) : Host.Outcome State Fault Refusal :=
  s.vsBits t d a b k fun x y => x &&& y

/-- VSLL.VS: a << (s mod w) (R156). -/
def execVsllVs (t : IntTy) (d a b : Reg) (k : VMask) (s : State) : Host.Outcome State Fault Refusal :=
  s.vsBits t d a b k fun x y => x <<< (y % intW t)

/-- VFADD.VS: a + s (R156). -/
def execVfaddVs (t : FTy) (d a b : Reg) (k : VMask) (s : State) : Host.Outcome State Fault Refusal :=
  s.vsFp t d a b k Fmt.addF

/-- VFSUB.VS: a − s (R156). -/
def execVfsubVs (t : FTy) (d a b : Reg) (k : VMask) (s : State) : Host.Outcome State Fault Refusal :=
  s.vsFp t d a b k Fmt.subF

/-- VFRSUB.VS: s − a (R156). -/
def execVfrsubVs (t : FTy) (d a b : Reg) (k : VMask) (s : State) : Host.Outcome State Fault Refusal :=
  s.vsFp t d a b k fun f m x y => f.subF m y x

/-- VFMUL.VS (R156). -/
def execVfmulVs (t : FTy) (d a b : Reg) (k : VMask) (s : State) : Host.Outcome State Fault Refusal :=
  s.vsFp t d a b k Fmt.mulF

/-- VFDIV.VS: a ÷ s (R156). -/
def execVfdivVs (t : FTy) (d a b : Reg) (k : VMask) (s : State) : Host.Outcome State Fault Refusal :=
  s.vsFp t d a b k Fmt.divF

/-- VFRDIV.VS: s ÷ a (R156). -/
def execVfrdivVs (t : FTy) (d a b : Reg) (k : VMask) (s : State) : Host.Outcome State Fault Refusal :=
  s.vsFp t d a b k fun f m x y => f.divF m y x

/-- VFMAC.VS: d + a × s, one rounding (R156). -/
def execVfmacVs (t : FTy) (d a b : Reg) (k : VMask) (s : State) : Host.Outcome State Fault Refusal :=
  let f := fmtOf t
  s.elementwise d f.bits k fun s e =>
    f.fmaV s.mode (f.decode (s.elem a f.bits e)) (f.decode (field (s.readG b) 0 f.bits)) (f.decode (s.elem d f.bits e))

/-- VFMAX.VS (R156). -/
def execVfmaxVs (t : FTy) (d a b : Reg) (k : VMask) (s : State) : Host.Outcome State Fault Refusal :=
  s.vsFp t d a b k fun f _ x y => (f.maxF x y, 0)

end Sys2Proof.Machine
end

