-- ==== Sys2Proof/Machine/VecMisc.lean ====
section
/-!
DEFINITION. Widening arithmetic, dot forms, conversions, reductions, scans and permutes, majors 0x22 and 0x27 to 0x29:
R81, R82, R89, R90, R157 to R162.
-/

namespace Sys2Proof.Machine

/-! ## Widening arithmetic, major 0x29 (R157) -/

/-- The V integer type that a widening source type is. -/
def wintTy : WIntTy → IntTy
  | .s32 => .s32 | .s16 => .s16 | .s8 => .s8 | .n32 => .n32 | .n16 => .n16 | .n8 => .n8

/-- A widening integer instruction: sources of width w, destination of width 2w, which EW must equal. -/
def State.vwint (s : State) (t : WIntTy) (d a b : Reg) (k : VMask) (f : Int → Int → Int → Int) :
    Host.Outcome State Fault Refusal :=
  let w := intW (wintTy t)
  let sg := intS (wintTy t)
  s.elementwise d (2 * w) k fun s e =>
    (intCode (2 * w) (f (intOf sg (2 * w) (s.elem d (2 * w) e)) (intOf sg w (s.elem a w e)) (intOf sg w (s.elem b w e))), 0)

/-- VWADD (R157). -/
def execVwadd (t : WIntTy) (d a b : Reg) (k : VMask) (s : State) : Host.Outcome State Fault Refusal :=
  s.vwint t d a b k fun _ x y => x + y

/-- VWSUB (R157). -/
def execVwsub (t : WIntTy) (d a b : Reg) (k : VMask) (s : State) : Host.Outcome State Fault Refusal :=
  s.vwint t d a b k fun _ x y => x - y

/-- VWMUL (R157). -/
def execVwmul (t : WIntTy) (d a b : Reg) (k : VMask) (s : State) : Host.Outcome State Fault Refusal :=
  s.vwint t d a b k fun _ x y => x * y

/-- VWMAC (R157). -/
def execVwmac (t : WIntTy) (d a b : Reg) (k : VMask) (s : State) : Host.Outcome State Fault Refusal :=
  s.vwint t d a b k fun z x y => z + x * y

/-- The source and destination formats of floating widening arithmetic (R157). -/
def fwFmts : FWTy → Fmt × Fmt
  | .f32 => (fp32, fp64) | .bf16 => (bf16, fp32) | .f16 => (fp16, fp32)

/-- A widening floating instruction: f of the values of d, a and b, rounded into the wider format. -/
def State.vwfp (s : State) (t : FWTy) (d a b : Reg) (k : VMask) (f : Fmt → RMode → FVal → FVal → FVal → Nat × Flags) :
    Host.Outcome State Fault Refusal :=
  let p := (fwFmts t).1
  let q := (fwFmts t).2
  s.elementwise d q.bits k fun s e =>
    f q s.mode (q.decode (s.elem d q.bits e)) (p.decode (s.elem a p.bits e)) (p.decode (s.elem b p.bits e))

/-- A rounded exact result, with NV when it made NaN of non-NaN inputs. -/
def Fmt.roundNv (f : Fmt) (m : RMode) (x : FVal × Bool) : Nat × Flags :=
  let r := f.round m x.1
  (r.1, r.2 ||| nvIf x.2)

/-- VFWADD (R157). -/
def execVfwadd (t : FWTy) (d a b : Reg) (k : VMask) (s : State) : Host.Outcome State Fault Refusal :=
  s.vwfp t d a b k fun q m _ x y => q.roundNv m (x.add m y)

/-- VFWSUB (R157). -/
def execVfwsub (t : FWTy) (d a b : Reg) (k : VMask) (s : State) : Host.Outcome State Fault Refusal :=
  s.vwfp t d a b k fun q m _ x y => q.roundNv m (x.add m y.neg)

/-- VFWMUL (R157). -/
def execVfwmul (t : FWTy) (d a b : Reg) (k : VMask) (s : State) : Host.Outcome State Fault Refusal :=
  s.vwfp t d a b k fun q m _ x y => q.roundNv m (x.mul y)

/-- VFWMAC: d + a × b, one rounding (R157). -/
def execVfwmac (t : FWTy) (d a b : Reg) (k : VMask) (s : State) : Host.Outcome State Fault Refusal :=
  s.vwfp t d a b k fun q m z x y => q.fmaV m x y z

/-! ## Dot forms (R90, R157) -/

/-- FVal.add in the mode, as exactSum takes it: c plus the products of the pairs, one rounding of the exact sum. NV only
when no input is NaN (R74, R88). -/
def Fmt.dot (f : Fmt) (m : RMode) (c : FVal) (l : List (FVal × FVal)) : Nat × Flags :=
  let p := l.map fun x => x.1.mul x.2
  let anyNan := c.isNan || l.any fun x => x.1.isNan || x.2.isNan
  let z := exactSum m (c :: p.map (·.1))
  let r := f.round m (if anyNan then .nan else z.1)
  (r.1, r.2 ||| nvIf (!anyNan && (z.2 || p.any (·.2))))

/-- VDOT: four 8-bit products added into 32 bits (R157). -/
def execVdot (t : ByteTy) (d a b : Reg) (k : VMask) (s : State) : Host.Outcome State Fault Refusal :=
  let sg := match t with | .s8 => true | .n8 => false
  s.elementwise d 32 k fun s e =>
    let p := (List.range 4).map fun i => intOf sg 8 (s.elem a 8 (4 * e + i)) * intOf sg 8 (s.elem b 8 (4 * e + i))
    (intCode 32 ((s.elem d 32 e : Int) + p.sum), 0)

/-- The format of a VFDOT source type. -/
def dotFmt : DotTy → Fmt
  | .bf16 => bf16 | .f16 => fp16 | .e5m2 => e5m2 | .e4m3 => e4m3

/-- VFDOT: two 16-bit or four 8-bit products added into FP32, one rounding in VCFG.RM, no scale (R90). -/
def execVfdot (t : DotTy) (d a b : Reg) (k : VMask) (s : State) : Host.Outcome State Fault Refusal :=
  let f := dotFmt t
  let n := 32 / f.bits
  s.elementwise d 32 k fun s e =>
    fp32.dot s.mode (fp32.decode (s.elem d 32 e))
      ((List.range n).map fun i => (f.decode (s.elem a f.bits (n * e + i)), f.decode (s.elem b f.bits (n * e + i))))

/-! ## Conversions, major 0x27 (R158) -/

/-- A number format of a conversion. -/
inductive NumFmt where
  | fp (f : Fmt)
  | int (signed : Bool) (w : Nat)
deriving DecidableEq, Repr

/-- The width of a number format. -/
def NumFmt.bits : NumFmt → Nat
  | .fp f => f.bits
  | .int _ w => w

/-- The exact value of a code. -/
def NumFmt.value : NumFmt → Nat → FVal
  | .fp f, x => f.decode x
  | .int sg w, x => .ofInt (intOf sg w x)

/-- The exact widening of a value (R158). -/
def NumFmt.exact : NumFmt → FVal → Nat
  | .fp f, x => (f.round .rne x).1
  | .int sg w, x => (satInt sg w .rtz x).code

/-- Sat(x, F) of R80. -/
def NumFmt.narrow : NumFmt → RMode → FVal → Narrowed
  | .fp f, m, x => f.sat m x
  | .int sg w, m, x => satInt sg w m x

/-- The format of each floating code of R158. -/
def cvtFmt : CvtF → Fmt
  | .f64 => fp64 | .tf32 => tf32 | .bf16 => bf16 | .f16 => fp16 | .e5m2 => e5m2 | .e4m3 => e4m3 | .e3m2 => e3m2
  | .e2m3 => e2m3 | .e2m1 => e2m1

/-- The integer format of a type. -/
def intFmt (i : IntTy) : NumFmt := .int (intS i) (intW i)

/-- The destination of an integer-to-integer conversion (R158). -/
def cvtDest (i : IntTy) : CvtD → NumFmt
  | .wide => .int (intS i) (2 * intW i)
  | .narrow => .int (intS i) (intW i / 2)
  | .flip => .int (!intS i) (intW i)
  | .flipNarrow => .int (!intS i) (intW i / 2)
  | .s4 => .int true 4
  | .n4 => .int false 4
  | .s6 => .int true 6
  | .n6 => .int false 6

/-- The source and destination of a conversion (R158). -/
def cvtPair : CvtOp → NumFmt × NumFmt
  | .fromF32 x => (.fp fp32, .fp (cvtFmt x))
  | .toF32 x => (.fp (cvtFmt x), .fp fp32)
  | .fToI p i => (.fp (precFmt p), intFmt i)
  | .iToF p i => (intFmt i, .fp (precFmt p))
  | .iToI i d => (intFmt i, cvtDest i d)

/-- Whether some value of the source is not exact in the destination (R158). -/
def narrowing : NumFmt × NumFmt → Bool
  | (.fp f, .fp g) => decide (g.m < f.m) || decide (g.e < f.e) || (f.nan != .none && g.nan == .none)
  | (.fp _, .int _ _) => true
  | (.int sg w, .fp g) => decide (g.m + 1 < if sg then w - 1 else w)
  | (.int a v, .int b w) => decide (intMin a v < intMin b w) || decide (intMax b w < intMax a v)

/-- The mode in which element e of a narrowing conversion rounds: VCFG.RM, SR included (R78, R82). -/
def Strand.narrowMode (x : Strand) (e : Nat) : RMode :=
  if x.rm = 5 then .sr (srBits x.rngSeed x.rngCtr e) else rmode x.rm

/-- The state after narrowed elements: destination, m7 at the active elements, flags in their lanes (R80, R81). -/
def State.narrowed (s : State) (d : Reg) (w : Nat) (r : List (Nat × Narrowed)) : State :=
  let v := r.foldl (fun v x => setElem v w x.1 x.2.code) (s.vreg d)
  ((s.setV d v).setM 7 (setBits (s.mask 7) (r.map fun x => (x.1, x.2.sat)))).raiseElems w
    (r.map fun x => (x.1, x.2.flags))

/-- VCVT (R158): the wider width must equal EW; a narrowing pair writes m7, and under SR advances RNGCTR. -/
def execVcvt (f : CvtOp) (d a : Reg) (k : VMask) (s : State) : Host.Outcome State Fault Refusal :=
  let p := cvtPair f
  ((s.needEw (max p.1.bits p.2.bits)).bind fun _ s =>
    let value (e : Nat) : FVal := p.1.value (s.elem a p.1.bits e)
    if narrowing p then
      let s' := s.narrowed d p.2.bits
        ((s.actives k).map fun e => (e, p.2.narrow (s.me.narrowMode e) (value e)))
      .ok () (if s.me.rm = 5 then s'.mapMe fun x => { x with rngCtr := x.rngCtr + 1 } else s').retire
    else .ok () (s.mapElems d p.2.bits k fun e => (p.2.exact (value e), 0)).retire).finish

/-! ## Reductions and scans, major 0x28 (R89, R159, R160) -/

/-- The tree of R89 over elements in order, an inactive one being none; fuel bounds its depth. -/
def treeFold {α : Type} (f : α → α → α) : Nat → List (Option α) → Option α
  | _, [] => none
  | _, [x] => x
  | 0, _ :: _ :: _ => none
  | fuel + 1, x :: y :: r =>
    let l := x :: y :: r
    let h := 2 ^ (bitLength (l.length - 1) - 1)
    match treeFold f fuel (l.take h), treeFold f fuel (l.drop h) with
    | none, b => b
    | a, none => a
    | some a, some b => some (f a b)

/-- VSTAT.EMPTY set, and the reduction's result in v_d[0] unless the strand holds no lane group (R146, R159, R160). -/
def State.reduced (s : State) (d : Reg) (w : Nat) (empty : Bool) (r : Nat × Flags) : State :=
  let s := s.mapMe fun x => { x with empty := empty }
  if s.held = 0 then s else (s.setV d (setElem (s.vreg d) w 0 r.1)).raiseElems w [(0, r.2)]

/-- An integer reduction: s and the active elements combined by f (R159). -/
def State.vreduce (s : State) (t : IntTy) (d a b : Reg) (k : VMask) (f : Int → Int → Int) :
    Host.Outcome State Fault Refusal :=
  let w := intW t
  let i := intOf (intS t) w
  ((s.needEw w).bind fun _ s =>
    let l := (s.actives k).map fun e => i (s.elem a w e)
    .ok () (s.reduced d w l.isEmpty (intCode w (l.foldl f (i (s.readG b).toNat)), 0)).retire).finish

/-- A reduction of the bits. -/
def State.vreduceBits (s : State) (t : IntTy) (d a b : Reg) (k : VMask) (f : Nat → Nat → Nat) :
    Host.Outcome State Fault Refusal :=
  let w := intW t
  ((s.needEw w).bind fun _ s =>
    let l := (s.actives k).map fun e => s.elem a w e
    .ok () (s.reduced d w l.isEmpty (l.foldl f (field (s.readG b) 0 w), 0)).retire).finish

/-- VRED.ADD (R159). -/
def execVredAdd (t : IntTy) (d a b : Reg) (k : VMask) (s : State) : Host.Outcome State Fault Refusal :=
  s.vreduce t d a b k fun x y => x + y

/-- VRED.MIN (R159). -/
def execVredMin (t : IntTy) (d a b : Reg) (k : VMask) (s : State) : Host.Outcome State Fault Refusal :=
  s.vreduce t d a b k fun x y => min x y

/-- VRED.MAX (R159). -/
def execVredMax (t : IntTy) (d a b : Reg) (k : VMask) (s : State) : Host.Outcome State Fault Refusal :=
  s.vreduce t d a b k fun x y => max x y

/-- VRED.AND (R159). -/
def execVredAnd (t : IntTy) (d a b : Reg) (k : VMask) (s : State) : Host.Outcome State Fault Refusal :=
  s.vreduceBits t d a b k fun x y => x &&& y

/-- VRED.OR (R159). -/
def execVredOr (t : IntTy) (d a b : Reg) (k : VMask) (s : State) : Host.Outcome State Fault Refusal :=
  s.vreduceBits t d a b k fun x y => x ||| y

/-- VRED.XOR (R159). -/
def execVredXor (t : IntTy) (d a b : Reg) (k : VMask) (s : State) : Host.Outcome State Fault Refusal :=
  s.vreduceBits t d a b k fun x y => x ^^^ y

/-- An operation on codes that carries the flags raised so far. -/
def withFlags (f : Nat → Nat → Nat × Flags) (x y : Nat × Flags) : Nat × Flags :=
  let r := f x.1 y.1
  (r.1, r.2 ||| x.2 ||| y.2)

/-- A floating reduction by the tree of R89, then with the seed. -/
def State.vfreduce (s : State) (t : FTy) (d a b : Reg) (k : VMask) (f : RMode → Nat → Nat → Nat × Flags) :
    Host.Outcome State Fault Refusal :=
  let w := (fmtOf t).bits
  ((s.needEw w).bind fun _ s =>
    let on := s.actives k
    let l := (List.range s.vlen).map fun e =>
      if on.contains e then some (s.elem a w e, (0 : Flags)) else none
    let seed : Nat × Flags := (field (s.readG b) 0 w, 0)
    let r := match treeFold (withFlags (f s.mode)) 13 l with
      | none => seed
      | some x => withFlags (f s.mode) seed x
    .ok () (s.reduced d w on.isEmpty r).retire).finish

/-- VFRED.TREE: the unordered sum (R89, R159). -/
def execVfredTree (t : FTy) (d a b : Reg) (k : VMask) (s : State) : Host.Outcome State Fault Refusal :=
  s.vfreduce t d a b k fun m x y => (fmtOf t).addF m x y

/-- VFRED.SEQ: the ordered sum (R89, R159). -/
def execVfredSeq (t : FTy) (d a b : Reg) (k : VMask) (s : State) : Host.Outcome State Fault Refusal :=
  let w := (fmtOf t).bits
  ((s.needEw w).bind fun _ s =>
    let l := (s.actives k).map fun e => (s.elem a w e, (0 : Flags))
    let r := l.foldl (withFlags ((fmtOf t).addF s.mode)) (field (s.readG b) 0 w, 0)
    .ok () (s.reduced d w l.isEmpty r).retire).finish

/-- VFRED.MIN (R89, R159). -/
def execVfredMin (t : FTy) (d a b : Reg) (k : VMask) (s : State) : Host.Outcome State Fault Refusal :=
  s.vfreduce t d a b k fun _ x y => ((fmtOf t).minF x y, 0)

/-- VFRED.MAX (R89, R159). -/
def execVfredMax (t : FTy) (d a b : Reg) (k : VMask) (s : State) : Host.Outcome State Fault Refusal :=
  s.vfreduce t d a b k fun _ x y => ((fmtOf t).maxF x y, 0)

/-- The running values of an inclusive scan over the listed elements. -/
def scanList {α : Type} (f : α → α → α) : α → List (Nat × α) → List (Nat × α)
  | _, [] => []
  | acc, (e, x) :: r => (e, f acc x) :: scanList f (f acc x) r

/-- A scan's values written at the active elements, EMPTY set (R159, R160). -/
def State.scanned (s : State) (d : Reg) (w : Nat) (l : List (Nat × Nat × Flags)) : State :=
  let s := s.mapMe fun x => { x with empty := l.isEmpty }
  (s.setV d (l.foldl (fun v x => setElem v w x.1 x.2.1) (s.vreg d))).raiseElems w (l.map fun x => (x.1, x.2.2))

/-- VSCAN (R159). -/
def execVscan (t : IntTy) (d a b : Reg) (k : VMask) (s : State) : Host.Outcome State Fault Refusal :=
  let w := intW t
  ((s.needEw w).bind fun _ s =>
    let l := scanList (fun x y => x + y) (field (s.readG b) 0 w) ((s.actives k).map fun e => (e, s.elem a w e))
    .ok () (s.scanned d w (l.map fun x => (x.1, x.2, 0))).retire).finish

/-- VFSCAN (R159). -/
def execVfscan (t : FTy) (d a b : Reg) (k : VMask) (s : State) : Host.Outcome State Fault Refusal :=
  let w := (fmtOf t).bits
  ((s.needEw w).bind fun _ s =>
    let l := scanList (withFlags ((fmtOf t).addF s.mode)) (field (s.readG b) 0 w, 0)
      ((s.actives k).map fun e => (e, s.elem a w e, (0 : Flags)))
    .ok () (s.scanned d w l).retire).finish

/-! ## Permutes, major 0x22 (R161, R162) -/

/-- VSHUP: elements moved up by g_b; those below g_b keep their values (R161). -/
def execVshup (t : IntTy) (d a b : Reg) (k : VMask) (s : State) : Host.Outcome State Fault Refusal :=
  s.elementwise d (intW t) k fun s e =>
    let n := (s.readG b).toNat
    (if n ≤ e then s.elem a (intW t) (e - n) else s.elem d (intW t) e, 0)

/-- VSHDN: elements moved down by g_b, zero beyond VL (R161). -/
def execVshdn (t : IntTy) (d a b : Reg) (k : VMask) (s : State) : Host.Outcome State Fault Refusal :=
  s.elementwise d (intW t) k fun s e =>
    let i := e + (s.readG b).toNat
    (if i < s.vlen then s.elem a (intW t) i else 0, 0)

/-- VPERM: v_a[v_b[e]], zero for an index at or above VL (R161). -/
def execVperm (t : IntTy) (d a b : Reg) (k : VMask) (s : State) : Host.Outcome State Fault Refusal :=
  s.elementwise d (intW t) k fun s e =>
    let i := s.elem b (intW t) e
    (if i < s.vlen then s.elem a (intW t) i else 0, 0)

/-- VPACKM: the active elements of v_a packed to the front; the rest of v_d unchanged (R161). -/
def execVpackm (t : IntTy) (d a : Reg) (mk : MReg) (s : State) : Host.Outcome State Fault Refusal :=
  let w := intW t
  ((s.needEw w).bind fun _ s =>
    let l := s.actives { on := true, num := mk }
    let v := l.zipIdx.foldl (fun v x => setElem v w x.2 (s.elem a w x.1)) (s.vreg d)
    .ok () (s.setV d v).retire).finish

/-- Where VRESHAPE takes element e from: the transpose of rows of length n, the rest as they stand (R162). -/
def reshapeFrom (vl n e : Nat) : Nat :=
  let r := vl / n
  if e < r * n then (e % r) * n + e / r else e

/-- VRESHAPE (R162). -/
def execVreshape (t : IntTy) (d a b : Reg) (s : State) : Host.Outcome State Fault Refusal :=
  let w := intW t
  ((s.needEw w).bind fun _ s =>
    let n := (s.readG b).toNat
    if s.vlen = 0 then .ok () s.retire
    else if n = 0 ∨ s.vlen < n then .trap (Trap.sync 0x09 0) s
    else .ok () (s.mapElems d w { on := false, num := 0 } fun e => (s.elem a w (reshapeFrom s.vlen n e), 0)).retire).finish

/-- VBCAST: v_a[g_b] to every active element, zero for an index at or above VL (R161). -/
def execVbcast (t : IntTy) (d a b : Reg) (k : VMask) (s : State) : Host.Outcome State Fault Refusal :=
  s.elementwise d (intW t) k fun s _ =>
    let i := (s.readG b).toNat
    (if i < s.vlen then s.elem a (intW t) i else 0, 0)

end Sys2Proof.Machine
end

