-- ==== Sys2Proof/Machine/CellOps.lean ====
section
/-!
DEFINITION. One cell of the Trellis: the slot word (R252 to R254), the operations on one lane (R259, R260), when a slot is
eligible (R256, R258), and what one firing changes (R257).
-/

namespace Sys2Proof.Machine

/-! ## The slot word (R252) -/

/-- A tag condition (R254). -/
structure TagCond where
  en : Bool
  ch : Nat
  mode : Nat
  tag : Nat
deriving DecidableEq, Repr

/-- The tag condition in the byte of a slot word at bit lo. -/
def tagCondAt (w : CellWord) (lo : Nat) : TagCond :=
  { en := w.getLsbD (lo + 7), ch := field w (lo + 5) 2, mode := field w (lo + 3) 2, tag := field w lo 3 }

/-- The fields of a slot word (R252). -/
structure Slot where
  pmask : Nat
  pval : Nat
  valid : Bool
  all : Bool
  tca : TagCond
  tcb : TagCond
  op : Nat
  sa : Nat
  sb : Nat
  sc : Nat
  dst : Nat
  puaKind : Nat
  puaPred : Nat
  pubKind : Nat
  pubPred : Nat
  deq : Nat
  enq : Bool
  och : Nat
  tsrc : Nat
  otag : Nat
deriving DecidableEq, Repr

/-- The slot that a word holds. -/
def cellSlot (w : CellWord) : Slot :=
  { pmask := field w 80 16, pval := field w 64 16, valid := w.getLsbD 63, all := w.getLsbD 62, tca := tagCondAt w 54,
    tcb := tagCondAt w 46, op := field w 40 6, sa := field w 36 4, sb := field w 32 4, sc := field w 28 4,
    dst := field w 24 4, puaKind := field w 22 2, puaPred := field w 18 4, pubKind := field w 16 2,
    pubPred := field w 12 4, deq := field w 8 4, enq := w.getLsbD 7, och := field w 5 2, tsrc := field w 3 2,
    otag := field w 0 3 }

/-- Which of the sources a, b, c an operation reads (R253, R259). -/
def opReads (op : Nat) : Bool × Bool × Bool :=
  if op = 0x0F ∨ op = 0x16 ∨ op = 0x23 ∨ op = opST ∨ op = opAMOADD then (true, true, true)
  else if op = opLD then (true, false, true)
  else if op = opSINK then (false, false, false)
  else if op = 0x00 ∨ op = 0x1A ∨ op = 0x1E ∨ op = 0x1F ∨ op = 0x20 ∨ op = 0x21 ∨ op = 0x26 then (true, false, false)
  else (true, true, false)

/-- Whether a tag condition asks for an end token (R258, R263). -/
def TagCond.isEnd (t : TagCond) : Bool := t.en && (t.mode == 2 || (t.mode == 0 && decide (6 ≤ t.tag)))

/-- A tag condition in its legal form (R254). -/
def TagCond.ok (t : TagCond) : Bool :=
  if t.en then t.mode == 0 || t.tag == 0 else t.ch == 0 && t.mode == 0 && t.tag == 0

/-- What TLOAD checks of one slot: ins and outs list the input channels that have a route and the output channels whose
route does not come from a read port; sink says whether the cell is marked as one (R252 to R255, R261, R263). -/
def slotOk (w : CellWord) (ins outs : List Nat) (sink : Bool) : Bool :=
  let x := cellSlot w
  if !x.valid then w == 0 else
  let r := opReads x.op
  let src (used : Bool) (code : Nat) : Bool :=
    if used then code != 15 && (decide (code < 8) || decide (11 < code) || ins.contains (code - 8)) else code == 0
  let pu (kind pred : Nat) : Bool := kind != 0 || pred == 0
  (x.pval &&& x.pmask) == x.pval && x.tca.ok && x.tcb.ok && decide (x.op ≤ opSINK) &&
  src r.1 x.sa && src r.2.1 x.sb && src r.2.2 x.sc && decide (x.dst ≤ 8) && pu x.puaKind x.puaPred &&
  pu x.pubKind x.pubPred && (List.range 4).all (fun n => !x.deq.testBit n || ins.contains n) &&
  (!x.enq || outs.contains x.och) && x.tsrc != 3 && (x.tsrc != 1 || x.tca.en) &&
  !(x.tca.en && x.tcb.en && x.tca.ch == x.tcb.ch) &&
  (!isMemOp x.op || (x.dst == 8 && x.puaKind != 3 && x.pubKind != 3 && (x.op == opST || x.enq))) &&
  (x.op != opSINK || (sink && x.tca.isEnd && x.deq.testBit x.tca.ch))

/-! ## Lane operations (R259) -/

/-- x read as signed. -/
def s32 (x : Nat) : Int := intOf true 32 x

/-- BFLO and BFHI decode a BF16 half into FP32: a NaN gives the canonical NaN (R74, R259). -/
def widenBf (x : Nat) : Nat := (fp32.round .rne (bf16.decode x)).1

/-- The result and flags of an operation that reads only its own lane (R259). -/
def laneOp (op a b c : Nat) : Nat × Flags :=
  let wrap (x : Nat) : Nat × Flags := (x % 2 ^ 32, 0)
  let flag (p : Bool) : Nat × Flags := (if p then 1 else 0, 0)
  if op = 0x00 then wrap a
  else if op = 0x01 then wrap (a + b)
  else if op = 0x02 then wrap (a + 2 ^ 32 - b)
  else if op = 0x03 then wrap (a * b)
  else if op = 0x04 then wrap (if s32 a ≤ s32 b then a else b)
  else if op = 0x05 then wrap (if s32 a ≤ s32 b then b else a)
  else if op = 0x06 then wrap (min a b)
  else if op = 0x07 then wrap (max a b)
  else if op = 0x08 then wrap (a &&& b)
  else if op = 0x09 then wrap (a ||| b)
  else if op = 0x0A then wrap (a ^^^ b)
  else if op = 0x0B then wrap (a <<< (b % 32))
  else if op = 0x0C then wrap (a >>> (b % 32))
  else if op = 0x0D then (intCode 32 (s32 a / 2 ^ (b % 32)), 0)
  else if op = 0x0E then (intCode 32 (intOf true (b % 32 + 1) a), 0)
  else if op = 0x0F then wrap (if c ≠ 0 then a else b)
  else if op = 0x10 then flag (a == b)
  else if op = 0x11 then flag (decide (s32 a < s32 b))
  else if op = 0x12 then flag (decide (a < b))
  else if op = 0x13 then fp32.addF .rne a b
  else if op = 0x14 then fp32.subF .rne a b
  else if op = 0x15 then fp32.mulF .rne a b
  else if op = 0x16 then fp32.fmaV .rne (fp32.decode a) (fp32.decode b) (fp32.decode c)
  else if op = 0x17 then (fp32.minF a b, 0)
  else if op = 0x18 then (fp32.maxF a b, 0)
  else if op = 0x19 then fp32.divF .rne a b
  else if op = 0x1A then fp32.sqrtF .rne a
  else if op = 0x1B then fp32.compare false FVal.eq a b
  else if op = 0x1C then fp32.compare true FVal.lt a b
  else if op = 0x1D then fp32.compare true (fun x y => !y.lt x) a b
  else if op = 0x1E then fp32.round .rne (.ofInt (s32 a))
  else if op = 0x1F then
    let r := satInt true 32 .rne (fp32.decode a)
    (r.code, r.flags)
  else if op = 0x20 then (widenBf (a % 2 ^ 16), 0)
  else if op = 0x21 then (widenBf (a / 2 ^ 16), 0)
  else if op = 0x22 then
    let x := bf16.sat .rne (fp32.decode a)
    let y := bf16.sat .rne (fp32.decode b)
    (y.code * 2 ^ 16 + x.code, x.flags ||| y.flags)
  else if op = 0x23 then
    fp32.dot .rne (fp32.decode c)
      [(bf16.decode (a % 2 ^ 16), bf16.decode (b % 2 ^ 16)), (bf16.decode (a / 2 ^ 16), bf16.decode (b / 2 ^ 16))]
  else if op = 0x24 then (if a < b then 0 else if a = b then 1 else 2, 0)
  else (0, 0)

/-- The sum of LSUM: the tree of R89 over lanes 0 to 7, absent ones left out, with the flags of its additions; +0 when all
are absent (R259). A NaN gives the canonical NaN (R74). -/
def laneSum (l : List (Option Nat)) : Nat × Flags :=
  let comb (x y : Nat × Flags) : Nat × Flags :=
    let r := fp32.addF .rne x.1 y.1
    (r.1, x.2 ||| y.2 ||| r.2)
  let r := (treeFold comb 3 (l.map fun x => x.map fun v => (v, (0 : Flags)))).getD (0, 0)
  (if (fp32.decode r.1).isNan then fp32.nanCode else r.1, r.2)

/-! ## Heads, guards and eligibility (R254, R256, R258) -/

/-- The token at the head of input channel n. -/
def Cell.head (c : Cell) (n : Nat) : Option Token := (c.inq.getD n []).head?

/-- Whether a tag condition holds (R254). -/
def Cell.tagHolds (c : Cell) (t : TagCond) : Bool :=
  !t.en || match c.head t.ch with
  | none => false
  | some x =>
    if t.mode = 0 then x.tag.toNat == t.tag
    else if t.mode = 1 then decide (x.tag.toNat ≤ 5)
    else if t.mode = 2 then decide (6 ≤ x.tag.toNat)
    else true

/-- The lanes whose guard holds (R256). -/
def Cell.guarded (c : Cell) (x : Slot) : List Nat :=
  (List.range 8).filter fun i => ((c.p.getD i 0).toNat &&& x.pmask) == (x.pval &&& x.pmask)

/-- The lanes in which a slot would fire, if it is eligible apart from conditions 5 and its memory checks (R256). -/
def Cell.eligible (c : Cell) (x : Slot) : Option (List Nat) :=
  let r := opReads x.op
  let has (used : Bool) (code : Nat) : Bool := !used || decide (code < 8) || decide (11 < code) || (c.head (code - 8)).isSome
  let lanes := c.guarded x
  if x.valid && c.tagHolds x.tca && c.tagHolds x.tcb && has r.1 x.sa && has r.2.1 x.sb && has r.2.2 x.sc &&
      (List.range 4).all (fun n => !x.deq.testBit n || (c.head n).isSome) &&
      (!x.enq || decide (c.used x.och < 4)) && (if x.all then lanes.length == 8 else !lanes.isEmpty) &&
      (!(x.op == opST || x.op == opAMOADD) || decide (c.acks < 64))
  then some lanes else none

/-- The slot that a cell fires next, with its lanes: the one it is committed to, or the lowest-numbered eligible one
(R256, R261, R274). A cell that a failed check or access holds fires nothing. -/
def Cell.pick (c : Cell) : Option (Nat × Slot × List Nat) :=
  if c.held then none else
  let try_ (j : Nat) : Option (Nat × Slot × List Nat) :=
    let x := cellSlot (c.slots.getD j 0)
    (c.eligible x).map fun l => (j, x, l)
  match c.committed with
  | some j => try_ j
  | none => (List.range 16).findSome? try_

/-! ## Firing (R257) -/

/-- The value of a source code in lane i (R253). -/
def Cell.source (c : Cell) (code i : Nat) : Nat :=
  if code < 8 then ((c.d.getD i (Vector.replicate 8 0)).getD code 0).toNat
  else if code < 12 then
    match c.head (code - 8) with
    | some t => (t.vals.getD i 0).toNat
    | none => 0
  else if code = 12 then i
  else if code = 14 then 0xFFFF_FFFF
  else 0

/-- The results of a firing that makes no access, lane by lane. SINK has no stated result: its lanes take the free values
given (R259, R260, log 21). -/
def Cell.results (c : Cell) (x : Slot) (lanes : List Nat) (free : Nat → BitVec 32) : Vector (BitVec 32 × Flags) 8 :=
  let lane (i : Nat) : Nat × Flags :=
    let a := c.source x.sa i
    let b := c.source x.sb i
    if x.op = 0x25 then (c.source x.sa (b % 8), 0)
    else if x.op = 0x26 then laneSum ((List.range 8).map fun k => if lanes.contains k then some (c.source x.sa k) else none)
    else if x.op = opSINK then ((free i).toNat, 0)
    else if isMemOp x.op then (0, 0)
    else laneOp x.op a b (c.source x.sc i)
  Vector.ofFn fun i : Fin 8 =>
    if lanes.contains i.val then let r := lane i.val; (BitVec.ofNat 32 r.1, r.2) else (0, 0)

/-- The tag of the token a firing enqueues (R252). -/
def Cell.tagFor (c : Cell) (x : Slot) (lanes : List Nat) : BitVec 3 :=
  if x.tsrc = 1 then ((c.head x.tca.ch).map (·.tag)).getD 0
  else if x.tsrc = 2 ∧ lanes.any (fun i => (c.p.getD i 0).getLsbD x.puaPred) then 6
  else BitVec.ofNat 3 x.otag

/-- A predicate update in one lane: set, clear, or the bit of the result (R253). -/
def predUpdate (kind pred : Nat) (bit : Bool) (p : BitVec 16) : BitVec 16 :=
  let one : BitVec 16 := 1 <<< pred
  if kind = 1 then p ||| one
  else if kind = 2 then p &&& ~~~one
  else if kind = 3 then (if bit then p ||| one else p &&& ~~~one)
  else p

/-- The input channels after a firing: a dequeued data token goes, an end token only where the slot asks for one (R258). -/
def Cell.dequeue (c : Cell) (x : Slot) : Vector (List Token) 4 :=
  Vector.ofFn fun n : Fin 4 =>
    let q := c.inq.getD n.val []
    if !x.deq.testBit n.val then q
    else match q with
      | [] => []
      | t :: r =>
        let asked := [x.tca, x.tcb].any fun k => k.isEnd && k.ch == n.val
        if t.tag.toNat ≤ 5 ∨ asked then r else t :: r

/-- The tokens that a firing dequeues, each with its channel. -/
def Cell.taken (c : Cell) (x : Slot) : List (Nat × Token) :=
  let q := c.dequeue x
  (List.range 4).filterMap fun n =>
    if (q.getD n []).length < (c.inq.getD n []).length then (c.head n).map fun t => (n, t) else none

/-- The predicates that a firing updates in lane i. -/
def Slot.updates (x : Slot) (lanes : List Nat) (i : Nat) : BitVec 16 :=
  if !lanes.contains i then 0
  else (if x.puaKind = 0 then 0 else 1 <<< x.puaPred) ||| (if x.pubKind = 0 then 0 else 1 <<< x.pubPred)

/-- A token onto an output channel, behind the tokens of the channel that the accesses of an LD or AMOADD are still to give: those have
entries reserved. The token of an ST, which has none, it may pass (R256, R261; log 64). -/
def Cell.enqueue (c : Cell) (ch : Nat) (t : Token) : Cell :=
  if c.ops.any fun o => o.chan == some ch && o.op.toNat != opST then
    { c with ops := c.ops ++ [{ op := 0, slot := 0, acc := Vector.replicate 8 none, data := t.vals, chan := some ch,
                                tag := t.tag, done := true, got := none, held := false, took := [], was := Vector.replicate 8 0,
                                hit := Vector.replicate 8 0 }] }
  else { c with outq := c.outq.setIfInBounds ch (c.outq.getD ch [] ++ [t]) }

/-- One firing of slot j: every operand read at the start, every effect at the end (R257, R261, R263). acc holds the checked
accesses of a memory operation. -/
def Cell.fire (c : Cell) (j : Nat) (x : Slot) (lanes : List Nat) (acc : Vector (Option LaneAcc) 8)
    (free : Nat → BitVec 32) : Cell :=
  let r := c.results x lanes free
  let tag := c.tagFor x lanes
  let inLane (i : Fin 8) : Bool := lanes.contains i.val
  let c' : Cell :=
    { c with
      d := Vector.ofFn fun i : Fin 8 =>
        let row := c.d[i]
        if inLane i && decide (x.dst < 8) then row.setIfInBounds x.dst r[i].1 else row
      p := Vector.ofFn fun i : Fin 8 =>
        if inLane i then
          predUpdate x.pubKind x.pubPred (r[i].1.getLsbD 1) (predUpdate x.puaKind x.puaPred (r[i].1.getLsbD 0) c.p[i])
        else c.p[i]
      flags := Vector.ofFn fun i : Fin 8 => c.flags[i] ||| r[i].2
      inq := c.dequeue x
      given := (c.taken x).foldl (fun l t => l.erase t.1) c.given
      committed := none
      resumed := false
      ops := c.ops.map fun o => { o with hit := Vector.ofFn fun i : Fin 8 => o.hit[i] &&& ~~~(x.updates lanes i.val) }
      sink := if x.op = opSINK then
          (if ((c.head x.tca.ch).map (·.tag)) = some 6 ∨ c.sink = .eeos then .eeos else .eos)
        else c.sink
      acks := if x.op = opST ∨ x.op = opAMOADD then c.acks + 1 else c.acks }
  if isMemOp x.op then
    { c' with ops := c'.ops ++
        [{ op := BitVec.ofNat 6 x.op, slot := j, acc := acc,
           data := Vector.ofFn fun i : Fin 8 => BitVec.ofNat 32 (c.source x.sb i.val),
           chan := if x.enq then some x.och else none, tag := tag, done := false, got := none, held := c.resumed, took := c.taken x, was := c.p,
           hit := Vector.ofFn fun i : Fin 8 => x.updates lanes i.val }] }
  else if x.enq then c'.enqueue x.och { vals := r.map (·.1), tag := tag }
  else c'

end Sys2Proof.Machine
end

