-- ==== Sys2Proof/Machine/Trellis.lean ====
section
/-!
DEFINITION. The Trellis of a tile as it runs: routes and link slots (R247 to R250), spill rings (R272), one cycle (R256,
R261), the performing of cell accesses, freezing and the fault record (R270, R271), and the deadlock detector (R273).
-/

namespace Sys2Proof.Machine

/-! ## Buffers at the ends of routes (R247, R249) -/

/-- The tokens at the source of a route: an output channel's, or a read port's. -/
def Load.sourceQ (l : Load) : End → List Token
  | .cell n ch => (l.cell n).outq.getD ch []
  | .port p => l.bufs.getD p []

/-- The load with the tokens at the source of a route replaced. -/
def Load.setSourceQ (l : Load) (e : End) (q : List Token) : Load :=
  match e with
  | .cell n ch => let c := l.cell n; l.setCell n { c with outq := c.outq.setIfInBounds ch q }
  | .port p => { l with bufs := l.bufs.setIfInBounds p q }

/-- The tokens at the destination of a route: an input channel's, or a write port's. -/
def Load.destQ (l : Load) : End → List Token
  | .cell n ch => (l.cell n).inq.getD ch []
  | .port p => l.bufs.getD p []

/-- The load with a token appended at the destination of a route. -/
def Load.appendDest (l : Load) (e : End) (t : Token) : Load :=
  match e with
  | .cell n ch => let c := l.cell n; l.setCell n { c with inq := c.inq.setIfInBounds ch (c.inq.getD ch [] ++ [t]) }
  | .port p => { l with bufs := l.bufs.setIfInBounds p (l.bufs.getD p [] ++ [t]) }

/-- The place code of an input channel (R269). -/
def End.code : End → Nat
  | .cell n ch => 8 * n + ch
  | .port p => 512 + p

/-- Where branch bi of a route leads from its hop i. -/
def Branch.after (b : Branch) (bi i : Nat) : Next :=
  match b.path.drop (b.path.idxOf i + 1) with
  | j :: _ => .hop j
  | [] => .dest bi

/-- Where branch bi of a route leads from the source. -/
def Branch.start (b : Branch) (bi : Nat) : Next :=
  match b.path with
  | j :: _ => .hop j
  | [] => .dest bi

/-- The slot of hop i of a route. -/
def Route.slot (r : Route) (i : Nat) : Option (Token × List Next) := (r.hops[i]?).bind (·.slot)

/-- The number of tokens that a route's source has sent to branch bi and its consumer has not dequeued, but for those in the
spill area (R250, R336; log 22). -/
def Load.window (l : Load) (r : Route) (b : Branch) (bi : Nat) : Nat :=
  (b.path.filter fun i => (r.slot i).any fun x => x.2.contains (b.after bi i)).length + (l.destQ b.dst).length

/-! ## Spill rings (R272) -/

/-- The place codes of the load's spillable channels, in rising order: ring i belongs to the i-th (log 23). -/
def Load.spillable (l : Load) : List Nat :=
  let codes := l.routes.flatMap fun r => (r.branches.filter (·.spill)).map fun b => b.dst.code
  (List.range 512).filter fun k => codes.contains k

/-- The entries of each spill ring (R272). -/
def ringSize (size channels : Nat) : Nat := size / (64 * channels)

/-- The entries of each of the load's rings. -/
def Load.ring (l : Load) : Nat := ringSize l.spillSize l.spillable.length

/-- The address of entry i of a channel's ring in an area with this base and ring size. -/
def Load.ringAddr (l : Load) (base : Word) (cap code i : Nat) : Word :=
  base + BitVec.ofNat 64 (64 * ((l.spillable.idxOf code) * cap + i % cap))

/-- A token as the eight doublewords of a 64-byte entry (R272, R381), with a place in bytes 34 and 35. -/
def Token.words (t : Token) (place : Nat) : List Nat :=
  ((List.range 4).map fun i => (t.vals.getD (2 * i) 0).toNat + 2 ^ 32 * (t.vals.getD (2 * i + 1) 0).toNat) ++
  [t.tag.toNat + 2 ^ 16 * place, 0, 0, 0]

/-- The token that an entry's doublewords hold. -/
def tokenOf (w : List Nat) : Token :=
  { vals := Vector.ofFn fun i : Fin 8 => BitVec.ofNat 32 (w.getD (i.val / 2) 0 / 2 ^ (32 * (i.val % 2))),
    tag := BitVec.ofNat 3 (w.getD 4 0) }

/-- The alignment and the checks of a store or load of the eight doublewords at va, without the access. -/
def State.checkEntry (s : State) (c : Ctx) (va : Word) (kind : AccKind) : Res Unit :=
  if va.toNat % 8 ≠ 0 then .trap (Trap.sync 0x03 va) s
  else forEach ((List.range 8).map fun i => va + BitVec.ofNat 64 (8 * i)) (fun a s =>
    (s.check c a kind .plain).bind fun _ s => .ok () s) s

/-- A 64-byte entry written, all of it or nothing. -/
def State.writeEntry (s : State) (c : Ctx) (va : Word) (w : List Nat) : Res Unit :=
  (s.checkEntry c va .store).bind fun _ s =>
    forEach ((List.range 8).map fun i => (va + BitVec.ofNat 64 (8 * i), w.getD i 0)) (fun x s => s.memWrite c x.1 8 x.2) s

/-- A 64-byte entry read. -/
def State.readEntry (s : State) (c : Ctx) (va : Word) : Res (List Nat) :=
  (s.readRecord c va).bind fun v s => .ok (v.toList.map BitVec.toNat) s

/-! ## Save areas that two loads share (R343) -/

/-- The state with free values in the eight doublewords at an address of a context, as far as they are memory. It is no write. -/
def State.scrambleAt (s : State) (c : Ctx) (n : Nat) (va : Word) : State :=
  (List.range n).foldl (fun s i =>
    let a := va + BitVec.ofNat 64 (8 * i)
    match (s.translate c a .store).1 with
    | .ok pa _ _ =>
      let p := s.resolveAlias (placeOf c.tile pa)
      if s.mayReach c.tile p && !s.isFrozen p then { s.free.2 with mem := memSetBytes s.mem p.key (leBytes 8 s.free.1.toNat) } else s
    | _ => s) s

/-- The words of a load's record that the Trellis writes, its head snapshot and the live entries of its rings, without defined contents. -/
def State.scrambleLoad (s : State) (t : Nat) (l : Load) : State :=
  let c := s.loadCtx t l
  let s := (s.scrambleAt c 2 l.save).scrambleAt c 64 (l.save + 64)
  l.spill.foldl (fun s e => (List.range e.2.2).foldl (fun s i =>
    s.scrambleAt c 8 (l.ringAddr l.spillBase l.ring e.1 (e.2.1 + i))) s) s

/-- The state once load l is on tile t: where loads of other tiles name its save area, the records and rings of all of them have no
defined contents (R343; log 96). -/
def State.shareSave (s : State) (t : Nat) (l : Load) : State :=
  match s.sharers t (s.strand l.owner).root l.save with
  | [] => s
  | o => ((t, l) :: o).foldl (fun s e => s.scrambleLoad e.1 e.2) s

/-! ## One cycle of the network -/

/-- What a part of a cycle has come to: the state, the load, whether a token has moved, whether a read or write of a spill ring waits,
the first spill fault, and the slots (route, hop) that have been filled in this cycle. -/
structure Net where
  s : State
  l : Load
  moved : Bool
  waits : Bool
  fault : Option Report
  fresh : List (Nat × Nat)
deriving DecidableEq, Repr

/-- The network at the start of a cycle. -/
def Net.start (s : State) (l : Load) : Net := { s := s, l := l, moved := false, waits := false, fault := none, fresh := [] }

/-- A spill fault of a channel (R272): the first one of the cycle counts. -/
def Net.fail (n : Net) (s : State) (cause : BitVec 8) (addr : Word) (code : Nat) : Net :=
  let r := { Report.plain cause 2 with cell := code / 8, chan := code % 8, addr := addr }
  { n with s := s, fault := n.fault <|> some r }

/-- A spilled channel's oldest token re-enters its buffer when an entry is free (R272, R343). R272 says what a spill write that fails
its checks does: a read of the ring that fails them freezes the load in the same way (DESIGN CHOICE, log 113). -/
def Net.refill (t : Nat) (n : Net) (code : Nat) : Net :=
  let r := n.l.spill.find (0, 0) code
  let e := End.cell (code / 8) (code % 8)
  if r.2 = 0 ∨ 4 ≤ (n.l.destQ e).length then n
  else match n.s.readEntry (n.s.loadCtx t n.l) (n.l.ringAddr n.l.spillBase n.l.ring code r.1) with
    | .ok w s =>
      let d := s.defined t n.l w
      let l := n.l.appendDest e (tokenOf d.1)
      { n with s := d.2, l := { l with spill := l.spill.put code ((r.1 + 1) % n.l.ring, r.2 - 1) }, moved := true }
    | .trap tr s => n.fail s tr.cause tr.addr code
    | .wait s => { n with s := s, waits := true }

/-- A token at the end of its route (R247, R272): into the buffer, or into the spill ring when the buffer is full or the
ring holds earlier tokens. With the ring full as well it stays where it is. The result says whether it has been taken. -/
def Net.deliver (t : Nat) (n : Net) (b : Branch) (k : Token) (spills : Bool) : Net × Bool :=
  let code := b.dst.code
  let r := n.l.spill.find (0, 0) code
  if (n.l.destQ b.dst).length < 4 ∧ r.2 = 0 then ({ n with l := n.l.appendDest b.dst k, moved := true }, true)
  else if !b.spill || !spills || decide (n.l.ring ≤ r.2) then (n, false)
  else
    let d := n.s.defined t n.l (k.words 0)
    match d.2.writeEntry (n.s.loadCtx t n.l) (n.l.ringAddr n.l.spillBase n.l.ring code (r.1 + r.2)) d.1 with
    | .ok _ s => ({ n with s := s, l := { n.l with spill := n.l.spill.put code (r.1, r.2 + 1) }, moved := true }, true)
    | .trap tr s => (n.fail s tr.cause tr.addr code, false)
    | .wait s => ({ n with s := s, waits := true }, false)

/-- The load with the slot of hop i of route ri replaced. -/
def Load.setSlot (l : Load) (ri i : Nat) (x : Option (Token × List Next)) : Load :=
  { l with routes := l.routes.modify ri fun r => { r with hops := r.hops.modify i fun h => { h with slot := x } } }

/-- Whether the destination of a branch can take a token now: into the buffer, or into the spill ring (R248, R272). -/
def Load.takes (l : Load) (b : Branch) (spills : Bool) : Bool :=
  let n := (l.spill.find (0, 0) b.dst.code).2
  decide ((l.destQ b.dst).length < 4) && n == 0 || (b.spill && spills && decide (n < l.ring))

/-- Whether the next place of a route can take a token now (R248, R272). -/
def Load.free (l : Load) (r : Route) (spills : Bool) : Next → Bool
  | .hop i => (r.slot i).isNone
  | .dest b => match r.branches[b]? with
    | some b => l.takes b spills
    | none => false

/-- Whether the window of branch bi of a multicast lets its source send: it is below the limit L, or the branch is a direct one whose
tokens go on into a spill ring (R250, R336; log 22). -/
def Load.windowOpen (l : Load) (r : Route) (b : Branch) (bi : Nat) : Bool :=
  decide (l.window r b bi < 4 + b.path.length) || (b.path.isEmpty && l.takes b true)

/-- The spillable branches that have no place left for the token that waits at their source: buffer, ring and link slots are all
full (R272, R334, R336; log 22). -/
def Load.overflows (l : Load) : List Branch :=
  l.routes.flatMap fun r =>
    if (l.sourceQ r.src).isEmpty then []
    else r.branches.filter fun b => b.spill && decide (4 ≤ (l.destQ b.dst).length) && !l.takes b true &&
      b.path.all fun i => (r.slot i).isSome

/-- A token moved to the next place of route ri. The result says whether it has been taken. -/
def Net.move (t ri : Nat) (k : Token) (spills : Bool) (n : Net) (x : Next) : Net × Bool :=
  match n.l.routes[ri]? with
  | none => (n, false)
  | some r =>
    match x with
    | .hop i => match r.slot i, r.hops[i]? with
      | none, some h =>
        ({ n with l := n.l.setSlot ri i (some (k, h.next)), moved := true, fresh := (ri, i) :: n.fresh }, true)
      | _, _ => (n, false)
    | .dest b => match r.branches[b]? with
      | some b => n.deliver t b k spills
      | none => (n, false)

/-- The routes that have a token ready on a link: its slot there was filled in an earlier cycle, and a place it leads to can
take it (R248). -/
def Net.ready (spills : Bool) (n : Net) (link : Nat) : List (Nat × Nat) :=
  n.l.routes.zipIdx.filterMap fun r =>
    (r.1.hops.zipIdx.find? fun h => h.1.link == link).bind fun h =>
      if (h.1.slot.any fun x => x.2.any fun y => n.l.free r.1 spills y) && !n.fresh.contains (r.2, h.2) then some (r.2, h.2)
      else none

/-- The token of hop i of route ri goes to every place it still has to reach that takes it. -/
def Net.serve (t : Nat) (spills : Bool) (n : Net) (ri i : Nat) : Net :=
  match (n.l.routes[ri]?).bind fun r => r.slot i with
  | none => n
  | some (k, owed) =>
    let r := owed.foldl (fun (a : Net × List Next) x =>
      let m := Net.move t ri k spills a.1 x
      (m.1, if m.2 then a.2 else a.2 ++ [x])) (n, [])
    { r.1 with l := r.1.l.setSlot ri i (if r.2.isEmpty then none else some (k, r.2)) }

/-- One link in one cycle (R248): it moves the token of one context, the ready ones in turn. stall says that the link goes to
another load or tile, which has at most 2 of its contexts, so at most twice in a row (R338). -/
def Net.link (t : Nat) (spills : Bool) (stall : List Nat) (n : Net) (link : Nat) : Net :=
  let a := n.l.arb.find (0, 0) link
  let ready := n.ready spills link
  match (ready.find? fun x => a.1 ≤ x.1) <|> ready.head? with
  | none => n
  | some x =>
    if stall.contains link ∧ a.2 < 2 then { n with l := { n.l with arb := n.l.arb.put link (a.1, a.2 + 1) } }
    else
      let n := n.serve t spills x.1 x.2
      { n with l := { n.l with arb := n.l.arb.put link (x.1 + 1, 0) } }

/-- The source of a route sends its head token to every branch in one cycle, when the window of each is open and the first
place of each takes it (R247, R250). A direct branch whose spill fails keeps the token where it was. -/
def Net.send (t : Nat) (n : Net) (ri : Nat) : Net :=
  match n.l.routes[ri]? with
  | none => n
  | some r =>
    match n.l.sourceQ r.src with
    | [] => n
    | k :: q =>
      let many := decide (1 < r.branches.length)
      if !(r.branches.zipIdx.all fun b => !many || n.l.windowOpen r b.1 b.2) ||
          !r.first.all (n.l.free r true) then n
      else
        let d := r.first.foldl (fun (a : Net × Bool) x => if a.2 then Net.move t ri k true a.1 x else a) (n, true)
        if d.2 then { d.1 with l := d.1.l.setSourceQ r.src q, moved := true }
        else { n with s := d.1.s, fault := d.1.fault }

/-- The shared links that the routes of a load cross. -/
def Load.links (l : Load) : List Nat := (l.routes.flatMap fun r => r.hops.map (·.link)).eraseDups

/-- One cycle of the network: spilled tokens re-enter, links move, sources send. A frozen load only finishes the moves of
its links (R271). -/
def Net.cycle (t : Nat) (frozen : Bool) (stall : List Nat) (n : Net) : Net :=
  let n := if frozen then n else n.l.spillable.foldl (Net.refill t) n
  let n := n.l.links.foldl (Net.link t (!frozen) stall) n
  if frozen then n else (List.range n.l.routes.length).foldl (Net.send t) n

/-! ## One cycle of the cells (R256, R261) -/

/-- A decided firing: cell, slot, lanes and checked accesses. -/
structure Firing where
  cell : Nat
  slot : Nat
  word : Slot
  lanes : List Nat
  acc : Vector (Option LaneAcc) 8
deriving DecidableEq, Repr

/-- The checks of the active lanes of a memory slot: the grants of the lanes, the lanes that failed with their causes, and
whether some lane must wait (R136, R137, R261). -/
structure Checks where
  s : State
  grants : List (Nat × Word × Grant)
  bad : List (Nat × Trap)
  waits : Bool
deriving DecidableEq, Repr

/-- An access that has been checked meets poison, or the timeout that waits for the owner's next request (R388, R389): the
firing has no effect, and the request that timed out has not been performed (R271; log 110). -/
def State.meetsError (s : State) (c : Ctx) (owner op : Nat) (va : Word) (g : Grant) : Option (Trap × State) :=
  if op ≠ opST ∧ s.isPoisoned g.key 4 then some (Trap.sync 0x18 va, s.usePoison c.tile g.key)
  else if g.leaves c.tile && (s.lostFor owner c.who).isSome then some (Trap.sync 0x19 va, s.lostTaken owner)
  else none

/-- The check of one lane's access. -/
def Checks.lane (c : Ctx) (owner op : Nat) (k : Checks) (i : Nat) (va : Word) : Checks :=
  if va.toNat % 4 ≠ 0 then { k with bad := k.bad ++ [(i, Trap.sync 0x03 va)] }
  else match (k.s.check c va (opKind op) (opHow op)).bind fun g s =>
      (s.awaitLost owner c.who (g.leaves c.tile)).bind fun _ s => .ok g s with
    | .ok g s => match s.meetsError c owner op va g with
      | some (t, s) => { k with s := s, bad := k.bad ++ [(i, t)] }
      | none => { k with s := s, grants := k.grants ++ [(i, va, g)] }
    | .trap t s => { k with s := s, bad := k.bad ++ [(i, t)] }
    | .wait s => { k with s := s, waits := true }

/-- The lanes of a picked slot that make an access, with its address: each firing lane with c ≠ 0 of a memory operation (R261). -/
def Cell.accesses (c : Cell) (x : Slot) (lanes : List Nat) : List (Nat × Word) :=
  if !isMemOp x.op then []
  else (lanes.filter fun i => c.source x.sc i != 0).map fun i => (i, BitVec.ofNat 64 (c.mb + c.source x.sa i))

/-- The checks of a picked slot. -/
def State.checkLanes (s : State) (ctx : Ctx) (owner : Nat) (c : Cell) (x : Slot) (lanes : List Nat) : Checks :=
  (c.accesses x lanes).foldl (fun k a => k.lane ctx owner x.op a.1 a.2)
    { s := s, grants := [], bad := [], waits := false }

/-- The accesses of a firing, lane by lane. -/
def Checks.acc (k : Checks) : Vector (Option LaneAcc) 8 :=
  k.grants.foldl (fun v g => v.setIfInBounds g.1 (some (g.2.2.lane g.2.1))) (Vector.replicate 8 none)

/-- What the cells decide in a cycle: the firings, the cells that stay committed, and the first failed check. -/
structure Decided where
  s : State
  fire : List Firing
  commit : List (Nat × Nat × Bool)
  fault : Option Report
deriving DecidableEq, Repr

/-- One cell's decision, from the state at the start of the cycle (R256, R261, R271). Of several lanes that fail, the lowest gives the
record its cause and address (log 113). While lanes of a resumed slot wait, those that have passed hold their translations (R274). -/
def Decided.cell (t : Nat) (l : Load) (d : Decided) (e : Nat × Cell) : Decided :=
  match e.2.pick with
  | none => d
  | some (j, x, lanes) =>
    let c := d.s.cellCtx t l e.1
    let k := d.s.checkLanes c l.owner e.2 x lanes
    match k.bad with
    | b :: r =>
      let mask := (b :: r).foldl (fun (m : BitVec 8) y => m ||| (1 <<< y.1)) 0
      let rep := { Report.plain b.2.cause 0 with cell := e.1, slot := j, lanes := mask, addr := b.2.addr }
      { d with s := k.s, commit := d.commit ++ [(e.1, j, true)], fault := d.fault <|> some rep }
    | [] =>
      if k.waits then
        let held := if e.2.resumed then k.grants.filterMap fun g => g.2.2.ent else []
        { d with s := held.foldl (fun s x => s.keep c.who x) k.s, commit := d.commit ++ [(e.1, j, false)] }
      else { d with s := k.s, fire := d.fire ++ [{ cell := e.1, slot := j, word := x, lanes := lanes, acc := k.acc }] }

/-- What the cells of a load decide in a cycle, the lowest-numbered first (R270; log 113). -/
def State.decideCells (s : State) (t : Nat) (l : Load) : Decided :=
  let d := l.cells.foldl (Decided.cell t l) { s := s, fire := [], commit := [], fault := none }
  { d with s := d.s.endWalks t }

/-- The load after the decided firings and commitments take effect. The k-th firing takes free values of its own. -/
def Load.applyCells (l : Load) (d : Decided) (tick : Nat) : Load :=
  let l := d.fire.zipIdx.foldl (fun l f =>
    l.setCell f.1.cell (((l.cell f.1.cell).fire f.1.slot f.1.word f.1.lanes f.1.acc
      (fun i => lo32 (Config.freeWord (tick + 8 * f.2 + i)))).settle)) l
  d.commit.foldl (fun l c => l.setCell c.1 { l.cell c.1 with committed := some c.2.1, held := c.2.2 }) l

/-- The load frozen with a report, unless an earlier report awaits its owner's ERET (R270, R271). -/
def Load.freeze (l : Load) (r : Option Report) : Load :=
  match r, l.report with
  | some r, none => { l with frozen := true, report := some { r with frozen := true } }
  | _, _ => l

/-- The translations held for cells that have fired or failed in a cycle are let go (R274). -/
def State.letGo (s : State) (l : Load) (d : Decided) : State :=
  let ended (n : Nat) : Bool := d.fire.any (fun f => f.cell == n) || d.commit.any fun c => c.1 == n && c.2.2
  { s with kept := s.kept.filter fun x => match x.1 with
      | .cell id n => id != l.id || !ended n
      | _ => true }

/-- Whether a stream attached to the load can still go on: it has room to push into, or a token to store, and no fault. It
then has an access outstanding (R273). -/
def State.streamGoesOn (s : State) (t : Nat) (l : Load) : Bool :=
  (List.range 16).any fun p =>
    let x := (s.tile t).ports.getD p Port.fresh
    x.st != .unbound && x.load == l.id && !x.ended && x.marker.isNone &&
    (if x.dirOut then !(l.bufs.getD p []).isEmpty else decide ((l.bufs.getD p []).length < 4))

/-- Whether a port of the load holds a fault marker (R273). -/
def State.portMarked (s : State) (t : Nat) (l : Load) : Bool :=
  (s.tile t).ports.any fun x => x.st != .unbound && x.load == l.id && x.marker.isSome

/-- No token of a running load could move even if every link were free, and no access to a spill ring waits (R248, R273). -/
def State.netStill (s : State) (t : Nat) (l : Load) : Bool :=
  let n := Net.cycle t false [] (Net.start s l)
  !n.moved && !n.waits

/-- Whether nothing goes on in a load: no cell is about to fire, no token can move, and no access, of a cell, a ring or a stream, is
outstanding (R273). -/
def State.stuck (s : State) (t : Nat) (l : Load) : Bool :=
  l.performed && l.cells.all (fun e => e.2.pick.isNone) && s.netStill t l && !s.streamGoesOn t l && !s.portMarked t l

/-- Whether every declared port of a load has its stream. -/
def State.allBound (s : State) (t : Nat) (l : Load) : Bool :=
  (List.range 16).all fun p =>
    let x := (s.tile t).ports.getD p Port.fresh
    !l.portMask.getLsbD p || (x.st != .unbound && x.load == l.id)

/-- The report of a spill ring that is full (R272), once nothing in the load goes on and no stream is still to come: until then the
other places of R336 may take the token (log 22). -/
def State.overflow (s : State) (t : Nat) (l : Load) : Option Report :=
  if l.drained || !s.stuck t l || !s.allBound t l then none
  else l.overflows.head?.map fun b => { Report.plain 0x11 2 with cell := b.dst.code / 8, chan := b.dst.code % 8 }

/-- The state and load after one cycle of a running load (R256, R271, R273). A failed check of a cell is reported before a spill that
fails in the same cycle (log 113). -/
def State.runCycle (s : State) (t : Nat) (l : Load) (stall : List Nat) : State × Load :=
  let d := s.decideCells t l
  let tick := d.s.tick
  let n := Net.cycle t false stall (Net.start { d.s with tick := tick + 8 * d.fire.length } l)
  let l' := n.l.applyCells d tick
  let l' : Load := { l' with cells := l'.cells.map fun (e : Nat × Cell) => (e.1, e.2.settle) }
  let still := !n.moved && !n.waits && d.fire.isEmpty && !l'.drained && n.s.stuck t l'
  (n.s.letGo l d, { l'.freeze (d.fault <|> n.fault <|> n.s.overflow t l') with quiet := if still then l.quiet + 1 else 0 })

/-- TRELLIS_CYCLE of tile t: nothing without a load; a frozen one only lets its links finish (R256, R271). stall names the
shared links that other loads and tiles take in this cycle: 64 times the cell a link leaves plus the one it enters (R248;
log 10). -/
def execTrellisCycle (t : Nat) (stall : List Nat) (s : State) : Host.Outcome State Fault Refusal :=
  match (s.tile t).active with
  | none => .next s
  | some l =>
    if l.sealed then .next s
    else if l.frozen then
      let n := Net.cycle t true stall (Net.start s l)
      .next (n.s.putLoad t n.l)
    else
      let r := s.runCycle t l stall
      .next (r.1.putLoad t r.2)

/-! ## Performing a cell's accesses (R261, R262) -/

/-- The lanes of an operation that meet the error of a trap: poison, a share that is frozen, a reservation, a timeout. -/
def State.badLanes (s : State) (o : CellOp) (tr : Trap) : BitVec 8 :=
  let failed (a : LaneAcc) : Bool :=
    (tr.cause == 0x18 && s.isPoisoned a.key 4) || a.va == tr.addr
  (List.range 8).foldl (fun (m : BitVec 8) i => if (o.acc.getD i none).any failed then m ||| (1 <<< i) else m) 0

/-- Whether a cell is committed to a slot whose failure comes before any other of the cell's (R270, R274). -/
def Cell.failing (c : Cell) : Bool := c.held || (c.resumed && c.committed.isSome)

/-- The cell after its operation i has met an error: the firing is undone, and the cell stays committed to its slot, unless an
earlier failure has committed it (R271, R274; log 24). -/
def Cell.refused (c : Cell) (i slot : Nat) : Cell :=
  if c.failing then c.undo i else { c.undo i with committed := some slot, held := true }

/-- CELL_ACCESS_DONE: the accesses of a cell's oldest fired operation are performed, in firing order. Poison and a timeout
that arrive with the data undo the firing and freeze the load; the operations behind it complete (R261, R271; log 24). -/
def execCellAccessDone (t cell : Nat) (s : State) : Host.Outcome State Fault Refusal :=
  match (s.tile t).active with
  | none => .next s
  | some l =>
    let c := l.cell cell
    match firstUndone [] c.ops with
    | none => .next s
    | some (before, o, rest) =>
      if l.sealed then .next s
      else match s.nextOp t l cell before o rest with
        | .ok c s => .next (s.putLoad t { l.setCell cell c with quiet := 0 })
        | .trap tr s =>
          let rep := { Report.plain tr.cause 0 with cell := cell, slot := o.slot, lanes := s.badLanes o tr, addr := tr.addr }
          let l' := l.setCell cell (c.refused before.length o.slot)
          .next (s.putLoad t (if c.failing then l' else l'.freeze (some rep)))
        | .wait s => .next s

/-! ## Freezing (R270, R271) -/

/-- No link of the load can still move a token (R271, step 5). -/
def State.linksDone (s : State) (t : Nat) (l : Load) : Bool := !(Net.cycle t true [] (Net.start s l)).moved

/-- The trap that a freeze gives its owner: Fabric Fault with the address of the record; a full spill ring and a deadlock
give their own causes (R271 to R273). -/
def Report.trapOf (r : Report) : BitVec 8 × Word :=
  if r.cause = 0x11 then (0x11, r.addr) else if r.cause = 0x0F then (0x0F, 0) else (0x0E, r.addr)

/-- FABRIC_FREEZE: a seal record that still waits is tried again; once a frozen load has settled, its record and head snapshot are written and its owner's trap becomes
pending; a save area that fails its checks seals the load (R270, R271, R274). -/
def execFabricFreeze (t : Nat) (s : State) : Host.Outcome State Fault Refusal :=
  let s := s.retryRecord t
  match (s.tile t).active with
  | none => .next s
  | some l =>
    match l.report with
    | none => .next s
    | some r =>
      if !l.frozen || r.written || !l.performed || !s.linksDone t l then .next s
      else match s.writeReport t l r 1 0 true with
        | .ok _ s =>
          let p := r.trapOf
          let s := (s.putLoad t { l with report := some { r with written := true } }).mapStrand l.owner fun x =>
            x.addFabric p.1 p.2
          .next s
        | .trap tr s => .next ((s.sealLoad t l.id r).mapStrand l.owner fun x => x.addFabric 0x0E tr.addr)
        | .wait s => .next s

/-- DEADLOCK_DETECT: after 4,096 cycles in which nothing has moved and nothing is outstanding, the load freezes with CAUSE
0x0F, and the report is counted (R273). -/
def execDeadlockDetect (t : Nat) (s : State) : Host.Outcome State Fault Refusal :=
  match (s.tile t).active with
  | none => .next s
  | some l =>
    if 4096 ≤ l.quiet ∧ !l.drained ∧ !l.frozen ∧ l.report = none ∧ s.stuck t l then
      .next ((s.putLoad t (l.freeze (some (Report.plain 0x0F 3)))).count (dieOf t) .deadlock)
    else .next s

end Sys2Proof.Machine
end

