-- ==== Sys2Proof/Machine/Plane.lean ====
section
/-!
DEFINITION. The planes of a Trellis: the configuration image and its checks (R255, R337 to R344), TLOAD (R225), TSWAP with
the stray-token check (R226, R268, R269), and what the owner's ERET does to its load (R251, R274, R384).
-/

namespace Sys2Proof.Machine

/-! ## The image (R340 to R342) -/

/-- A configuration image as one number, byte k at bit 8k, and its header words. -/
structure Image where
  bits : Nat
  total : Nat
deriving DecidableEq, Repr

/-- The n-byte little-endian number at byte offset o of an image. -/
def Image.at_ (m : Image) (o n : Nat) : Nat := (m.bits >>> (8 * o)) % 2 ^ (8 * n)

/-- Doubleword i of the header. -/
def Image.word (m : Image) (i : Nat) : BitVec 64 := BitVec.ofNat 64 (m.at_ (8 * i) 8)

/-- The numbers of slot, route and init records, and the offsets at which they begin (R340). -/
def Image.nslot (m : Image) : Nat := field (m.word 5) 32 32
/-- The number of route records. -/
def Image.nroute (m : Image) : Nat := field (m.word 5) 16 16
/-- The number of init records. -/
def Image.ninit (m : Image) : Nat := field (m.word 5) 0 16
/-- The offset of the slot records. -/
def Image.slotOff (m : Image) : Nat := field (m.word 6) 32 32
/-- The offset of the route records. -/
def Image.routeOff (m : Image) : Nat := field (m.word 6) 0 32
/-- The offset of the init records. -/
def Image.initOff (m : Image) : Nat := field (m.word 7) 32 32

/-- A slot record: cell, slot, the word, and whether its zero field is zero (R341). -/
structure SlotRec where
  cell : Nat
  slot : Nat
  word : CellWord
  zero : Bool
deriving DecidableEq, Repr

/-- The slot records. -/
def Image.slotRecs (m : Image) : List SlotRec :=
  (List.range m.nslot).map fun i =>
    let a : BitVec 64 := BitVec.ofNat 64 (m.at_ (m.slotOff + 16 * i) 8)
    let b := m.at_ (m.slotOff + 16 * i + 8) 8
    { cell := field a 58 6, slot := field a 54 4, word := BitVec.ofNat 96 (field a 0 32 * 2 ^ 64 + b),
      zero := field a 32 22 == 0 }

/-- An endpoint half-word: in use, its end, spillable, and whether its reserved bit is zero (R341). source says that the
end is a source, whose cell channel is an output. -/
structure Endpoint where
  valid : Bool
  end_ : End
  spill : Bool
  raw : Nat
deriving DecidableEq, Repr

/-- The endpoint that a half-word holds. -/
def endpointOf (h : Nat) : Endpoint :=
  let w : BitVec 16 := BitVec.ofNat 16 h
  { valid := w.getLsbD 15, end_ := if w.getLsbD 14 then .port (field w 0 4) else .cell (field w 7 6) (field w 5 2),
    spill := w.getLsbD 13, raw := h % 2 ^ 16 }

/-- A route record: source, the eight destinations, and whether its zero field is zero (R341). -/
structure RouteRec where
  src : Endpoint
  dsts : List Endpoint
  zero : Bool
deriving DecidableEq, Repr

/-- The route records. -/
def Image.routeRecs (m : Image) : List RouteRec :=
  (List.range m.nroute).map fun i =>
    let o := m.routeOff + 24 * i
    let half (k : Nat) : Endpoint := endpointOf (m.at_ (o + 8 * (k / 4) + (6 - 2 * (k % 4))) 2)
    { src := half 0, dsts := (List.range 8).map fun k => half (k + 1), zero := m.at_ (o + 16) 6 == 0 }

/-- The destinations in use of a route record. -/
def RouteRec.used (r : RouteRec) : List Endpoint := r.dsts.takeWhile (·.valid)

/-- An init record (R342). -/
structure InitRec where
  cell : Nat
  kind : Nat
  reg : Nat
  all : Bool
  lane : Nat
  zero : Bool
  value : Nat
deriving DecidableEq, Repr

/-- The init records. -/
def Image.initRecs (m : Image) : List InitRec :=
  (List.range m.ninit).map fun i =>
    let a : BitVec 64 := BitVec.ofNat 64 (m.at_ (m.initOff + 16 * i) 8)
    { cell := field a 58 6, kind := field a 56 2, reg := field a 52 4, all := a.getLsbD 51, lane := field a 48 3,
      zero := field a 0 48 == 0, value := m.at_ (m.initOff + 16 * i + 8) 8 }

/-- The masks of declared ports, ports out and ports in BCAST mode (R340). -/
def Image.ports (m : Image) : BitVec 16 := BitVec.ofNat 16 (field (m.word 3) 48 16)
/-- The directions of the ports. -/
def Image.dirs (m : Image) : BitVec 16 := BitVec.ofNat 16 (field (m.word 3) 32 16)
/-- The modes of the ports. -/
def Image.modes (m : Image) : BitVec 16 := BitVec.ofNat 16 (field (m.word 3) 16 16)
/-- Byte p of the port table. -/
def Image.attachByte (m : Image) (p : Nat) : Nat := m.at_ (64 + p) 1
/-- The attachment cell of port p. -/
def Image.attach (m : Image) (p : Nat) : Nat := m.attachByte p % 64

/-! ## Routes over the grid (R337) -/

/-- The cells that a route from cell a to cell b passes, from a on: along a's row to b's column, then along that column. -/
def gridPath (a b : Nat) : List Nat :=
  let row (c : Nat) : Nat := c / 8
  let col (c : Nat) : Nat := c % 8
  let cols := if col a ≤ col b then (List.range (col b - col a)).map fun i => col a + i + 1
    else (List.range (col a - col b)).map fun i => col a - i - 1
  let rows := if row a ≤ row b then (List.range (row b - row a)).map fun i => row a + i + 1
    else (List.range (row a - row b)).map fun i => row a - i - 1
  a :: (cols.map fun c => 8 * row a + c) ++ rows.map fun r => 8 * r + col b

/-- The shared links, each directed, that a branch crosses. A route between grid neighbours uses their direct wire, a port
and its own attachment cell the port's wire (R337). -/
def Image.linksOf (m : Image) (src dst : End) : List (Nat × Nat) :=
  let at_ : End → Nat
    | .cell n _ => n
    | .port p => m.attach p
  let p := gridPath (at_ src) (at_ dst)
  let l := p.zip (p.drop 1)
  match src, dst with
  | .cell _ _, .cell _ _ => if l.length ≤ 1 then [] else l
  | _, _ => l

/-- The shared links of a whole route: each counts once, whichever branches use it (R337). -/
def Image.routeLinks (m : Image) (r : RouteRec) : List (Nat × Nat) :=
  (r.used.flatMap fun d => m.linksOf r.src.end_ d.end_).eraseDups

/-! ## The checks of TLOAD (R255, R344) -/

/-- The input channels of a cell that have a route. -/
def Image.insOf (m : Image) (n : Nat) : List Nat :=
  (List.range 4).filter fun ch => m.routeRecs.any fun r => r.used.any fun d => d.end_ == .cell n ch

/-- The output channels of a cell that have a route. -/
def Image.outsOf (m : Image) (n : Nat) : List Nat :=
  (List.range 4).filter fun ch => m.routeRecs.any fun r => r.src.end_ == .cell n ch

/-- The header, the port table and the bounds of the records (R339, R340, R344). -/
def Image.headOk (m : Image) : Bool :=
  m.word 0 == 0x0000000101474643 && field (m.word 3) 0 16 == 0 && field (m.word 4) 57 7 == 0 &&
  field (m.word 4) 0 12 == 0 && decide (80 ≤ m.total) &&
  (m.nslot == 0 || decide (m.slotOff + 16 * m.nslot ≤ m.total)) &&
  (m.nroute == 0 || decide (m.routeOff + 24 * m.nroute ≤ m.total)) &&
  (m.ninit == 0 || decide (m.initOff + 16 * m.ninit ≤ m.total)) &&
  (List.range 16).all (fun p => (m.attachByte p / 64) % 2 == 0) &&
  (List.range 16).all (fun p => !m.ports.getLsbD p ||
    (decide (128 ≤ m.attachByte p) &&
     (let c := m.attach p
      (c / 8 == 0 || c / 8 == 7 || c % 8 == 0 || c % 8 == 7) &&
      decide (((List.range 16).filter fun q => m.ports.getLsbD q && m.attach q == c).length ≤ 2))))

/-- One route record (R247, R250, R341, R344). -/
def Image.routeOk (m : Image) (r : RouteRec) : Bool :=
  let declared (p : Nat) (out : Bool) : Bool := m.ports.getLsbD p && m.dirs.getLsbD p == out
  let reserved (e : Endpoint) : Bool := !e.valid || !(e.raw.testBit 4)
  r.zero && r.src.valid && !r.src.spill && reserved r.src && r.dsts.all reserved &&
  (r.dsts.drop r.used.length).all (fun e => e.raw == 0) && !r.used.isEmpty &&
  match r.src.end_ with
  | .port p => declared p false && r.used.all (fun d => match d.end_ with | .cell _ _ => true | .port _ => false)
  | .cell _ _ =>
    decide (r.used.length ≤ 4) &&
    r.used.all (fun d => match d.end_ with
      | .cell _ _ => true
      | .port p => declared p true && r.used.length == 1)

/-- Whether a list holds no element twice. -/
def noRepeats {α : Type} [BEq α] : List α → Bool
  | [] => true
  | x :: l => !l.contains x && noRepeats l

/-- The routes together: at most one route on each end, one on each write port, and the links within their contexts (R337,
R338; log 43). -/
def Image.routesOk (m : Image) : Bool :=
  let recs := m.routeRecs
  let links := recs.flatMap m.routeLinks
  let ends := recs.flatMap fun r => r.used.map (·.end_)
  recs.all m.routeOk && noRepeats (recs.map (·.src.end_)) && noRepeats ends &&
  (List.range 16).all (fun p => !(m.ports.getLsbD p && m.dirs.getLsbD p) || ends.contains (.port p)) &&
  links.all fun k => decide (links.count k ≤ 6)

/-- One init record (R342). -/
def InitRec.ok (r : InitRec) : Bool :=
  r.zero && decide (r.kind < 3) &&
  (if r.kind = 0 then decide (r.reg < 8) && decide (r.value < 2 ^ 32)
   else if r.kind = 1 then decide (r.value < 2)
   else r.reg == 0 && r.all && decide (r.value < 2 ^ 57))

/-- The whole image (R255, R344). -/
def Image.ok (m : Image) : Bool :=
  m.headOk && m.routesOk &&
  noRepeats (m.slotRecs.map fun r => (r.cell, r.slot)) &&
  m.slotRecs.all (fun r => r.zero && (m.word 1).getLsbD r.cell &&
    slotOk r.word (m.insOf r.cell) (m.outsOf r.cell) ((m.word 2).getLsbD r.cell)) &&
  m.initRecs.all InitRec.ok

/-! ## The load that an image gives (R245, R268, R342) -/

/-- An init record applied to its cell. -/
def Cell.init (c : Cell) (r : InitRec) : Cell :=
  let hit (i : Nat) : Bool := r.all || r.lane == i
  if r.kind = 0 then
    { c with d := Vector.ofFn fun i : Fin 8 =>
        if hit i.val then c.d[i].setIfInBounds r.reg (BitVec.ofNat 32 r.value) else c.d[i] }
  else if r.kind = 1 then
    { c with p := Vector.ofFn fun i : Fin 8 =>
        if hit i.val then predUpdate (if r.value = 1 then 1 else 2) r.reg false c.p[i] else c.p[i] }
  else { c with mb := r.value }

/-- The cells that an image mentions. -/
def Image.cellsUsed (m : Image) : List Nat :=
  (List.range 64).filter fun n =>
    (m.word 1).getLsbD n || (m.word 2).getLsbD n || m.initRecs.any (fun r => r.cell == n) ||
    m.routeRecs.any fun r => (r.src :: r.used).any fun e => match e.end_ with | .cell k _ => k == n | .port _ => false

/-- The route of a route record: its hops are the shared links that its branches cross, each once (R248, R337). SPILL of a destination
that is a write port has no effect (R341; log 48). -/
def Image.route (m : Image) (r : RouteRec) : Route :=
  let code (k : Nat × Nat) : Nat := 64 * k.1 + k.2
  let links := (m.routeLinks r).map code
  let branches : List Branch := r.used.map fun d =>
    { dst := d.end_, path := (m.linksOf r.src.end_ d.end_).map fun k => links.idxOf (code k),
      spill := d.spill && match d.end_ with | .cell _ _ => true | .port _ => false }
  { src := r.src.end_, branches := branches,
    first := (branches.zipIdx.map fun b => b.1.start b.2).eraseDups,
    hops := links.zipIdx.map fun k =>
      { link := k.1, slot := none,
        next := (branches.zipIdx.filterMap fun b => if b.1.path.contains k.2 then some (b.1.after b.2 k.2) else none).eraseDups } }

/-- The fabric load of an image: its slots, routes and initial values, nothing yet in any channel. -/
def Image.load (m : Image) (id owner : Nat) (at_ : Word) : Load :=
  let place (v : Vector CellWord 16) (r : SlotRec) : Vector CellWord 16 := v.setIfInBounds r.slot r.word
  let slots (n : Nat) : Vector CellWord 16 :=
    (m.slotRecs.filter fun r => r.cell == n).foldl place (Vector.replicate 16 0)
  let cell0 (n : Nat) : Cell := { Cell.fresh with slots := slots n }
  let cells : Table Cell := m.cellsUsed.map fun n => (n, (m.initRecs.filter fun r => r.cell == n).foldl Cell.init (cell0 n))
  { id := id, owner := owner, image := at_, cellMask := m.word 1, sinkMask := m.word 2, portMask := m.ports,
    dirMask := m.dirs, modeMask := m.modes, attach := Vector.ofFn fun p : Fin 16 => m.attach p.val,
    save := BitVec.ofNat 64 (field (m.word 4) 0 57), cells := cells,
    routes := m.routeRecs.map m.route,
    spill := [], spillBase := 0, spillSize := 0, ends := Vector.replicate 16 .none, bufs := Vector.replicate 16 [], arb := [],
    frozen := false, report := none, sealed := false, quiet := 0 }

/-! ## TLOAD (R225) -/

/-- The n doublewords at va read as scalar loads, as one number. -/
def State.readImage (s : State) (va : Word) : Nat → Res Nat
  | 0 => .ok 0 s
  | n + 1 =>
    (s.memRead s.ctx va 8).bind fun w s => (State.readImage s (va + 8) n).bind fun r s => .ok (w + 2 ^ 64 * r) s

/-- Whether another strand than k owns a load in one of the planes. -/
def Tile.othersLoad (y : Tile) (k : Nat) : Bool :=
  (y.active.any fun l => l.owner != k) || y.shadow.any fun l => l.owner != k

/-- The image at va, checked and written into the shadow plane. Its first eight words say how much is read (R225, R340). An image that
is aligned to 8 bytes and not to 64 is loaded (log 48). A shadow load that it replaces is gone with its buffered tokens; the ports
bound to that load keep its number (DESIGN CHOICE, log 119). -/
def State.tload (s : State) (va : Word) : Res Unit :=
  (s.readImage va 8).bind fun h s =>
    let head : Image := { bits := h, total := 0 }
    let total := field (head.word 7) 0 32
    if head.word 0 ≠ 0x0000000101474643 ∨ total < 80 then .trap (Trap.sync 0x1C va) s
    else (s.readImage va ((total + 7) / 8)).bind fun bits s =>
      let m : Image := { bits := bits, total := total }
      if !m.ok then .trap (Trap.sync 0x1C va) s
      else
        let id := s.newId
        let l := m.load id.1 s.cur va
        .ok () ((id.2.mapTile s.myTile fun y => { y with shadow := some l }).shareSave s.myTile l)

/-- TLOAD: g_b := 0 and nothing else when another strand owns a load on the Trellis (R225). -/
def execTload (a b : Reg) (s : State) : Host.Outcome State Fault Refusal :=
  if (s.tile s.myTile).othersLoad s.cur then .next (s.writeRetire b 0)
  else ((s.tload (s.readG a)).bind fun _ s => .ok () (s.writeRetire b 1)).finish

/-! ## TSWAP (R226, R268, R269) -/

/-- The report of a failed stray-token check: the lowest place that holds a token (R269). -/
def strayReport (code : Nat) : Report :=
  if code < 512 then { Report.plain 0x10 2 with cell := code / 8, chan := code % 8 }
  else { Report.plain 0x10 1 with port := code - 512 }

/-- The load with the spill area that words 2 and 3 of its fault record name; an area of no entries when they cannot be
read (R270; log 25). -/
def State.latchSpill (s : State) (t : Nat) (l : Load) : Res Load :=
  if l.spillable.isEmpty then .ok l s else
  let c := s.loadCtx t l
  match (s.memRead c (l.save + 16) 8).bind fun b s => (s.memRead c (l.save + 24) 8).bind fun n s => .ok (b, n) s with
  | .ok x s =>
    .ok { l with spillBase := BitVec.ofNat 64 (x.1 % 2 ^ 57), spillSize := x.2 % 2 ^ 32 } s
  | .trap _ s => .ok { l with spillBase := 0, spillSize := 0 } s
  | .wait s => .wait s

/-- The shadow plane of strand k's tile made active, at one cycle boundary; the flags and the error end-of-stream of the
load that ends are kept for its owner (R93, R226, R235, R268). -/
def State.swapPlanes (s : State) (k : Nat) : Res Unit :=
  let t := tileOf k
  let s := match s.ownsActive k with
    | some l => s.mapStrand k fun x => { x with rflags := x.rflags ||| l.flags, eeos := x.eeos || l.eeos }
    | none => s
  match s.ownsShadow k with
  | some l => (s.latchSpill t l).bind fun l s => .ok () (s.mapTile t fun y => { y with active := some l, shadow := none })
  | none => .ok () (s.mapTile t fun y => { y with active := none })

/-- Steps 2 and 3 of TSWAP for strand k, whose active load, if any, has drained (R226, R269). -/
def State.swapDrained (s : State) (k : Nat) : Res Unit :=
  match s.ownsActive k with
  | none => s.swapPlanes k
  | some l =>
    match l.strays with
    | [] => s.swapPlanes k
    | x :: r =>
      let code := r.foldl (fun m y => min m y.1) x.1
      .trap (Trap.sync 0x10 (BitVec.ofNat 64 code)) (s.sealLoad (tileOf k) l.id (strayReport code))

/-- Whether strand k's active load, if it owns one, has drained, and every access that its cells have fired is performed
(R226, R261, R289). -/
def State.swapReady (s : State) (k : Nat) : Bool := (s.ownsActive k).all fun l => l.drained && l.performed

/-- TSWAP: Stream Protocol for a strand that owns no load, whose address field the manual does not give (log 26);
otherwise at once when the active load has drained, or else the strand waits (R226). -/
def execTswap (s : State) : Host.Outcome State Fault Refusal :=
  if (s.ownsActive s.cur).isNone ∧ (s.ownsShadow s.cur).isNone then
    .next (s.free.2.enterTrap (Trap.sync 0x1B s.free.1))
  else if s.swapReady s.cur then ((s.swapDrained s.cur).bind fun _ s => .ok () s.retire).finish
  else .next (s.mapMe fun x => { x with run := .swapping })

/-- TSWAP_PROCEED: a strand that waits in TSWAP goes on once its load has drained (R226). -/
def execTswapProceed (k : Nat) (s : State) : Host.Outcome State Fault Refusal :=
  if (s.strand k).run = .swapping ∧ s.swapReady k then
    ((s.swapDrained k).bind fun _ s => .ok () (s.wakeRetire k)).finishFor k
  else .next s

/-! ## The owner's ERET (R251, R274, R384) -/

/-- The live entries of a channel's spill ring, from the head. -/
def State.ringTokens (s : State) (t : Nat) (l : Load) (code : Nat) : Nat → Nat → Res (List (List Nat))
  | _, 0 => .ok [] s
  | h, n + 1 =>
    (s.readEntry (s.loadCtx t l) (l.ringAddr l.spillBase l.ring code h)).bind fun w s =>
      let d := s.defined t l w
      (State.ringTokens d.2 t l code (h + 1) n).bind fun r s => .ok (d.1 :: r) s

/-- Every live entry with the place code of its channel. -/
def State.allTokens (s : State) (t : Nat) (l : Load) : List (Nat × Nat × Nat) → Res (List (Nat × List (List Nat)))
  | [] => .ok [] s
  | (code, h, n) :: r =>
    (s.ringTokens t l code h n).bind fun w s =>
      (State.allTokens s t l r).bind fun m s => .ok ((code, w) :: m) s

/-- The spill rings of a load moved, in order, to the area that l' names: the fault record's present one. An area too small
freezes the load again; so does an access that fails (R272, R274, R384). -/
def State.moveRings (s : State) (t : Nat) (l l' : Load) : Res Load :=
  let live := l.spill.filter fun e => e.2.2 != 0
  let stop (cause : BitVec 8) (addr : Word) (code : Nat) : Load :=
    l.freeze (some { Report.plain cause 2 with cell := code / 8, chan := code % 8, addr := addr })
  if l.spillBase = l'.spillBase ∧ l.spillSize = l'.spillSize then .ok l' s
  else match live.find? fun e => decide (l'.ring < e.2.2) with
    | some e => .ok (stop 0x11 0 e.1) s
    | none =>
      let moved := (s.allTokens t l (live.map fun e => (e.1, e.2.1, e.2.2))).bind fun m s =>
        forEach (m.flatMap fun x => x.2.zipIdx.map fun w => (x.1, w.2, w.1)) (fun x s =>
          s.writeEntry (s.loadCtx t l) (l'.ringAddr l'.spillBase l'.ring x.1 x.2.1) x.2.2) s
      match moved with
      | .ok _ s => .ok { l' with spill := live.map fun e => (e.1, (0, e.2.2)) } s
      | .trap tr s => .ok (stop tr.cause tr.addr ((live.head?.map (·.1)).getD 0)) s
      | .wait s => .wait s

/-- A cell whose failure its owner's ERET has released: it stays committed to the slot that failed (R274). -/
def Cell.released (c : Cell) : Cell :=
  { c with held := false, resumed := c.resumed || (c.held && c.committed.isSome) }

/-- Every cell of a load free of its failure, and the load's report gone. -/
def Load.released (l : Load) : Load := { l with cells := l.cells.map fun e => (e.1, e.2.released), report := none }

/-- The state in which a cell of load l of tile t that has been resumed holds the translations of its slot's lanes (R274). -/
def State.holdCell (s : State) (t : Nat) (l : Load) (e : Nat × Cell) : State :=
  let c := s.cellCtx t l e.1
  match if e.2.resumed then e.2.pick else none with
  | some (_, x, lanes) => (e.2.accesses x lanes).foldl (fun s a => match s.translate c a.2 (opKind x.op) with
      | (.ok _ _ (some ent), s) => s.keep c.who ent
      | (_, s) => s) s
  | none => s

/-- The state in which every resumed cell of load l of tile t holds its translations. -/
def State.holdCells (s : State) (t : Nat) (l : Load) : State := (l.cells.foldl (fun s e => s.holdCell t l e) s).endWalks t

/-- A load sealed at its owner's ERET, its outstanding accesses completed first (R274). -/
def State.sealDone (s : State) (t : Nat) (l : Load) : Res Unit :=
  (s.finishOps t l.id).bind fun _ s => .ok () (s.sealLoad t l.id (l.report.getD (Report.plain 0 3)))

/-- A frozen load whose record is written, at its owner's ERET: STATE 1 in word 0 resumes it, anything else seals it
(R274). -/
def State.resumeLoad (s : State) (t : Nat) (l : Load) : Res Unit :=
  match s.memRead (s.loadCtx t l) l.save 8 with
  | .ok w0 s =>
    let d := s.defined t l [w0]
    let s := d.2
    if (d.1.getD 0 0 / 2 ^ 54) % 4 = 1 then
      let l0 := { l.released with frozen := false, quiet := 0 }
      (s.latchSpill t l0).bind fun l1 s => (s.moveRings t l0 l1).bind fun l2 s => .ok () ((s.putLoad t l2).holdCells t l2)
    else s.sealDone t l
  | .trap _ s => s.sealDone t l
  | .wait s => .wait s

/-- The reported markers of strand k's ports gone: each port retries its element (R251). -/
def State.clearMarkers (s : State) (k : Nat) : State :=
  s.mapTile (tileOf k) fun y =>
    { y with ports := y.ports.map fun x =>
        if x.st ≠ .unbound ∧ x.strand = k ∧ x.reported then { x with marker := none, reported := false } else x }

/-- What strand k's ERET does to its fabric loads before it retires (R251, R270, R274). While a frozen load's record is still
to be written the ERET waits for it. -/
def State.eretLoads (s : State) (k : Nat) : Res Unit :=
  let t := tileOf k
  let clear (s : State) : State :=
    let s := s.clearMarkers k
    match s.ownsShadow k with
    | some l => s.putLoad t l.released
    | none => s
  match s.ownsActive k with
  | none => .ok () (clear s)
  | some l =>
    if !l.frozen then .ok () (clear ((s.putLoad t l.released).holdCells t l.released))
    else if (l.report.map (·.written)).getD false then (s.resumeLoad t l).bind fun _ s => .ok () (clear s)
    else .wait s

end Sys2Proof.Machine
end

