-- ==== Sys2Proof/Machine/Stream.lean ====
section
/-!
DEFINITION. Stream ports: patterns (R61, R62), SBIND with its range reservation (R222, R333, R393), SREL and TBAR (R224),
what the streams do (R249, R251), and the split of a reservation (R223, R394).
-/

namespace Sys2Proof.Machine

/-! ## Patterns (R61, R62) -/

/-- Trip count of level i. -/
def tripCount (w : Vector Word 8) (i : Nat) : Nat := field w[1] (16 * i) 16

/-- Bytes of an element. -/
def elemBytes (w : Vector Word 8) : Nat := 2 ^ field w[3] 32 2

/-- The number of elements of a pattern. -/
def elemCount (w : Vector Word 8) : Nat := tripCount w 0 * tripCount w 1 * tripCount w 2 * tripCount w 3

/-- A signed 32-bit stride. -/
def strideAt (x : Word) (lo : Nat) : Word := sext (BitVec.ofNat 32 (field x lo 32))

/-- The address of the first element of row r: the rows are the innermost, contiguous runs, in order. -/
def rowAddr (w : Vector Word 8) (r : Nat) : Word :=
  let d1 := r % tripCount w 1
  let d2 := r / tripCount w 1 % tripCount w 2
  let d3 := r / (tripCount w 1 * tripCount w 2)
  BitVec.ofNat 64 (field w[0] 0 57) + BitVec.ofNat 64 d1 * strideAt w[2] 0 + BitVec.ofNat 64 d2 * strideAt w[2] 32 +
    BitVec.ofNat 64 d3 * strideAt w[3] 0

/-- The address of element k (R62). -/
def elemAddr (w : Vector Word 8) (k : Nat) : Word :=
  rowAddr w (k / tripCount w 0) + BitVec.ofNat 64 (k % tripCount w 0 * elemBytes w)

/-- The rows of a pattern as spans (address, bytes); none when a count is zero. -/
def rowSpans (w : Vector Word 8) : List (Nat × Nat) :=
  if elemCount w = 0 then []
  else (List.range (tripCount w 1 * tripCount w 2 * tripCount w 3)).map fun r =>
    ((rowAddr w r).toNat, tripCount w 0 * elemBytes w)

/-- The range of a pattern: the lowest byte it touches and the byte after the highest (R222). -/
def spanRange : List (Nat × Nat) → Option (Nat × Nat)
  | [] => none
  | (a, n) :: l => match spanRange l with
    | none => some (a, a + n)
    | some (lo, hi) => some (min a lo, max (a + n) hi)

/-- The lowest byte of the 4 KiB granule g that the spans touch. -/
def lowestTouched (g : Nat) : List (Nat × Nat) → Option Nat
  | [] => none
  | (a, n) :: l =>
    let lo := max a (0x1000 * g)
    let r := lowestTouched g l
    if lo < min (a + n) (0x1000 * g + 0x1000) then some (match r with | some x => min lo x | none => lo) else r

/-- The 4 KiB granules that the spans touch, in rising order, each with its lowest touched byte. -/
def touchedGranules (l : List (Nat × Nat)) : List (Nat × Nat) :=
  match spanRange l with
  | none => []
  | some (lo, hi) => (List.range (hi / 0x1000 + 1 - lo / 0x1000)).filterMap fun i =>
      (lowestTouched (lo / 0x1000 + i) l).map fun a => (lo / 0x1000 + i, a)

/-! ## SBIND (R222, R393) -/

/-- A descriptor's fields (R61, R221). -/
def streamOk (w : Vector Word 8) (gen : Bool) : Bool :=
  field w[0] 57 7 == 0 && field w[3] 34 30 == 0 && field w[3] 32 2 != 3 && field w[4] 62 2 != 3 &&
  field w[4] 56 5 == 0 && field w[4] 0 52 == 0 && w[5] == 0 && w[6] == 0 && w[7] == 0 && !(gen && w[4].getLsbD 61)

/-- Part of a range on one page: virtual and stored address of its first covered line, and its lines (R393). -/
structure RangeSeg where
  vlo : Nat
  plo : Nat
  nlines : Nat
deriving DecidableEq, Repr

/-- Whether the pages that a pattern touches lie both in scratchpads and in directory-managed memory (R222, step 3). A page
that does not translate is left to step 6. -/
def State.mixes (s : State) (c : Ctx) (kind : AccKind) (l : List (Nat × Nat)) : Bool :=
  let places := l.filterMap fun g => match (s.translate c (BitVec.ofNat 64 g.2) kind).1 with
    | .ok pa _ _ => some (s.resolveAlias (placeOf c.tile pa))
    | _ => none
  places.any Place.scratch && places.any Place.coherent

/-- The page that holds a virtual address under the entry that it translates through: base and bytes. With translation off the
model takes pages of 4 KiB (log 28). -/
def pageOf (ent : Option TlbEnt) (va : Nat) : Nat × Nat :=
  match ent with
  | some e => (e.va, e.size)
  | none => (alignDown va 0x1000, 0x1000)

/-- Step 6 of SBIND: every touched page translated, in rising order, with the segments to reserve (R222, R393). -/
def State.streamPages (s : State) (c : Ctx) (kind : AccKind) (lo hi : Nat) :
    List (Nat × Nat) → List RangeSeg → Res (List RangeSeg)
  | [], segs => .ok segs s
  | (_, a) :: rest, segs =>
    match s.translate c (BitVec.ofNat 64 a) kind with
    | (.fail cause, s) => .trap (Trap.sync cause (BitVec.ofNat 64 a)) s
    | (.hold, s) => .wait s
    | (.ok pa _ ent, s) =>
      match s.resolveAlias (placeOf c.tile pa) with
      | .control _ => .trap (Trap.sync 0x07 (BitVec.ofNat 64 a)) s
      | .unmapped => .trap (Trap.sync 0x07 (BitVec.ofNat 64 a)) s
      | p =>
        let pg := pageOf ent a
        let vlo := alignDown (max lo pg.1) 128
        let seg : RangeSeg :=
          { vlo := vlo, plo := p.key - (a - vlo), nlines := ceilDiv (min hi (pg.1 + pg.2) - vlo) 128 }
        if !p.coherent || (segs.getLast?.map (·.vlo)) == some vlo then State.streamPages s c kind lo hi rest segs
        else State.streamPages s c kind lo hi rest (segs ++ [seg])

/-- The entries that a binding's segments put into the table of die d (R393). -/
def segEntries (d : Nat) (segs : List RangeSeg) (bind strand port : Nat) (w : Vector Word 8) : List RangeEnt :=
  (segs.filter fun g => (List.range g.nlines).any fun i => trackDie (g.plo + 128 * i) == d).map fun g =>
    { bind := bind, write := w[4].getLsbD 61, policy := BitVec.ofNat 2 (field w[4] 62 2),
      rscope := BitVec.ofNat 4 (field w[4] 52 4), strand := strand, port := port, splits := 0, vlo := g.vlo,
      plo := g.plo, nlines := g.nlines }

/-- Whether an entry covers a line of the segments that is homed on die d. -/
def RangeEnt.overlaps (e : RangeEnt) (d : Nat) (segs : List RangeSeg) : Bool :=
  segs.any fun g => (List.range g.nlines).any fun i =>
    trackDie (g.plo + 128 * i) == d && e.covers (lineOf (g.plo + 128 * i))

/-- Whether a line lies in the segments. -/
def inSegs (segs : List RangeSeg) (l : Nat) : Bool :=
  segs.any fun g => decide (lineOf g.plo ≤ l) && decide (l < lineOf g.plo + g.nlines)

/-- Whether a reservation of the segments conflicts with one that is held, an engine command's write reservation among them (R214,
R222). -/
def State.conflicts (s : State) (segs : List RangeSeg) (write : Bool) : Bool :=
  ((List.range 4).any fun d => (s.mdie d).ranges.any fun e => (write || e.2.write) && e.2.overlaps d segs) ||
  s.cmds.any fun e => e.2.lines.any fun l => inSegs segs l

/-- Entries put into the lowest free places of a table. -/
def placeEntries : List RangeEnt → Table RangeEnt → Table RangeEnt
  | [], t => t
  | e :: l, t =>
    match (List.range 2048).find? fun i => (t.get? i).isNone with
    | some i => placeEntries l (t.put i e)
    | none => t

/-- A memory-side die with new entries in its table. -/
def MDie.withEntries (m : MDie) (l : List RangeEnt) : MDie :=
  let t := placeEntries l m.ranges
  { m with ranges := t, used := t.foldl (fun n e => max n (e.1 + 1)) m.used }

/-- The back-invalidates that granting a reservation needs, of lines homed here (R222, R391). -/
def State.grantSnoops (s : State) (segs : List RangeSeg) (write : Bool) : List (Nat × Bool) :=
  (s.dir.filter fun e => inSegs segs e.1 && homedHere (128 * e.1)).flatMap fun e =>
    [(2 * e.1, e.2.lo), (2 * e.1 + 1, e.2.hi)].filterMap fun x =>
      if write then (if x.2 = .n then none else some (x.1, true)) else if x.2 = .e then some (x.1, false) else none

/-- The state after a reservation is granted: cached copies invalidated for write intent, dirty ones recalled for read
intent, and every load reservation on its lines lost (R207, R222). -/
def State.granted (s : State) (segs : List RangeSeg) (write : Bool) : State :=
  let line (e : Nat × DirLine) : Nat × DirLine :=
    if !inSegs segs e.1 then e
    else
      let d := if write then e.2.clear else e.2.shared
      (e.1, if homedHere (128 * e.1) then d else { d with dlo := e.2.dlo, dhi := e.2.dhi })
  let strand (x : Strand) : Strand :=
    { x with resv := x.resv.filter fun r => !inSegs segs (lineOf r.pa) }
  { s with dir := s.dir.map line, strands := s.strands.map fun e => (e.1, strand e.2) }

/-- The memory tile whose generator context serves a binding: the one that caches BASE's line, otherwise the next with a free
context; none where every context of the die is taken (R60, R222). -/
def State.genContext (s : State) (c : Ctx) (base : Word) : Option Nat :=
  let pa := match (s.translate c base .load).1 with | .ok pa _ _ => pa | _ => 0
  let first := ((pa / 128) % 32) ^^^ ((pa / 4096) % 32)
  let d := dieOf c.tile
  let used (m : Nat) : Nat :=
    ((s.tiles.filter fun e => dieOf e.1 == d).map fun e =>
      (e.2.ports.toList.filter fun x => x.st != .unbound && x.gen == some m).length).sum
  ((List.range 32).map fun i => (first + i) % 32).find? fun m => decide (used m < 8)

/-- Stream Protocol, whose address field the manual does not give: a free value (log 26). -/
def State.protocolTrap (s : State) : Res Unit := .trap (Trap.sync 0x1B s.free.1) s.free.2

/-- The state with port p of tile t replaced. -/
def State.setPort (s : State) (t p : Nat) (x : Port) : State :=
  s.mapTile t fun y => { y with ports := y.ports.setIfInBounds p x }

/-- Port p of tile t. -/
def State.port (s : State) (t p : Nat) : Port := (s.tile t).ports.getD p Port.fresh

/-- The load to which a binding of the issuing strand attaches (R266). -/
def State.attachLoad (s : State) : Option Load :=
  match s.ownsShadow s.cur with
  | some l => some l
  | none => s.ownsActive s.cur

/-- The last part of SBIND: the reservation registered and granted, and the port bound (R222, R266, R393). -/
def State.bindPort (s : State) (l : Load) (p : Nat) (gen : Bool) (at_ : Word) (w : Vector Word 8) (segs : List RangeSeg) :
    Res Unit :=
  let write := w[4].getLsbD 61
  let id := s.newId
  let new (d : Nat) : List RangeEnt := segEntries d segs id.1 s.cur p w
  if s.conflicts segs write then .trap (Trap.sync 0x0B s.free.1) s.free.2
  else if (List.range 4).any fun d => !(new d).isEmpty && decide (2048 < (s.mdie d).ranges.length + (new d).length) then
    .wait s
  else match s.grantSnoops segs write with
    | x :: r => .wait (s.sendSnoops (x :: r))
    | [] =>
      let s := (List.range 4).foldl (fun s d => s.mapMDie d fun m => m.withEntries (new d)) id.2
      let s := s.granted segs write
      let x : Port :=
        { Port.fresh with
          st := .bound, bind := id.1, strand := s.cur, root := s.me.root, asid := s.me.asid, sup := s.me.pl, load := l.id,
          gen := if gen then s.genContext s.ctx w[0] else none, descAddr := at_, desc := w,
          bcast := l.modeMask.getLsbD p, save := l.save }
      .ok () (s.setPort s.myTile p x).retire

/-- The checks of SBIND and SBIND.GEN, in their order (R222). -/
def State.sbind (s : State) (gen : Bool) (pn at_ : Word) : Res Unit :=
  match s.attachLoad with
  | none => s.protocolTrap
  | some l =>
    if 16 ≤ pn.toNat then s.protocolTrap
    else if at_.toNat % 64 ≠ 0 then .trap (Trap.sync 0x03 at_) s
    else (s.readRecord s.ctx at_).bind fun w s =>
      let kind : AccKind := if w[4].getLsbD 61 then .store else .load
      let spans := rowSpans w
      let granules := touchedGranules spans
      if !streamOk w gen || s.mixes s.ctx kind granules then .trap (Trap.sync 0x1A at_) s
      else
        let p := pn.toNat
        let x := s.port s.myTile p
        if !l.portMask.getLsbD p || l.dirMask.getLsbD p != w[4].getLsbD 61 || x.st == .bound then s.protocolTrap
        else if x.st = .releasing then .wait s
        else
          let r := (spanRange spans).getD (0, 0)
          (s.streamPages s.ctx kind r.1 r.2 granules []).bind fun segs s => s.bindPort l p gen at_ w segs

/-- SBIND (R222). -/
def execSbind (a b : Reg) (s : State) : Host.Outcome State Fault Refusal :=
  (s.sbind false (s.readG a) (s.readG b)).finish

/-- SBIND.GEN (R222). -/
def execSbindGen (a b : Reg) (s : State) : Host.Outcome State Fault Refusal :=
  (s.sbind true (s.readG a) (s.readG b)).finish

/-! ## SREL and TBAR (R224, R333) -/

/-- SREL: the port starts releasing; Stream Protocol for a port that the strand has not bound (R224, R333). -/
def execSrel (a : Reg) (s : State) : Host.Outcome State Fault Refusal :=
  let n := (s.readG a).toNat
  let x := s.port s.myTile n
  if n < 16 ∧ x.st = .bound ∧ x.strand = s.cur then .next (s.setPort s.myTile n { x with st := .releasing }).retire
  else s.protocolTrap.finish

/-- TBAR waits for the releases that the strand itself has issued on the ports of the mask (R224, R333). -/
def execTbar (a : Reg) (s : State) : Host.Outcome State Fault Refusal :=
  let m := s.readG a
  if field m 16 48 ≠ 0 then s.protocolTrap.finish
  else if (List.range 16).any fun p => m.getLsbD p && (s.port s.myTile p).st == .releasing &&
      (s.port s.myTile p).strand == s.cur then .next s
  else .next s.retire

/-! ## What a stream does (R62, R249, R251) -/

/-- The context of a stream's accesses: its binder's, as it was at the SBIND, under the binding's reservation. -/
def Port.ctx (x : Port) (t : Nat) : Ctx :=
  { tile := t, root := x.root, asid := x.asid, sup := x.sup, party := none, bind := x.bind, who := .stream x.bind }

/-- Whether the port's buffer has a free entry: its tokens for both planes, and those left of a load that has ended, share
four entries (R249, R266). -/
def State.portRoom (s : State) (t p : Nat) : Bool :=
  let n (l : Option Load) : Nat := (l.map fun l => (l.bufs.getD p []).length).getD 0
  decide (n (s.tile t).active + n (s.tile t).shadow + (s.port t p).buf.length < 4)

/-- A token pushed into the buffer of port p, for the load it is attached to. -/
def State.push (s : State) (t p : Nat) (k : Token) : State :=
  let x := s.port t p
  match (s.tile t).load? x.load with
  | some l => s.putLoad t { l with bufs := l.bufs.setIfInBounds p (l.bufs.getD p [] ++ [k]), quiet := 0 }
  | none => s.setPort t p { x with buf := x.buf ++ [k] }

/-- A granted access of port x of tile t meets the timeout that waits for its binder's next request that leaves the die: the request
is performed, or not, and the port stops with CAUSE 0x19 (R270, R389; log 110). -/
def State.portTimeout (s : State) (t : Nat) (x : Port) (va : Word) (g : Grant) (perform : State → State) : Res Unit :=
  (s.awaitLost x.strand (.stream x.bind) (g.leaves t)).bind fun _ s =>
    match if g.leaves t then s.lostFor x.strand (.stream x.bind) else none with
    | some done => .trap (Trap.sync 0x19 va) ((if done then perform s else s).lostTaken x.strand)
    | none => .ok () s

/-- The element at a port's index read (R62, R136). -/
def State.readElem (s : State) (t : Nat) (x : Port) : Res Nat :=
  let va := elemAddr x.desc x.idx
  let n := elemBytes x.desc
  if va.toNat % n ≠ 0 then .trap (Trap.sync 0x03 va) s
  else (s.check (x.ctx t) va .load .plain).bind fun g s => (s.portTimeout t x va g id).bind fun _ s =>
    if s.isPoisoned g.key n then .trap (Trap.sync 0x18 va) (s.usePoison t g.key)
    else .ok (s.load g.key n) (s.recordAccess (x.ctx t) g false)

/-- The elements of one token read: up to n of them, from the port's index on (R62, R249). The values read before a fault or a
wait stay in the port. -/
def State.readElems (s : State) (t : Nat) : Nat → Port → State × Port × Bool
  | 0, x => (s, x, true)
  | n + 1, x =>
    if elemCount x.desc ≤ x.idx then (s, x, true)
    else match s.readElem t x with
      | .ok v s => State.readElems s t n { x with idx := x.idx + 1, pack := x.pack ++ [BitVec.ofNat 32 v] }
      | .trap tr s => (s, { x with marker := some (tr.cause, tr.addr) }, false)
      | .wait s => (s, x, false)

/-- The data token that read elements form (R249). -/
def packToken (bcast : Bool) (l : List (BitVec 32)) : Token :=
  { vals := Vector.ofFn fun i : Fin 8 => if bcast then l.getD 0 0 else l.getD i.val 0, tag := 0 }

/-- Whether the load that a port is attached to is frozen (R271). -/
def State.portFrozen (s : State) (t p : Nat) : Bool :=
  (((s.tile t).load? (s.port t p).load).map (·.frozen)).getD false

/-- Whether strand k is suspending and the regions of its loads are written: the ports keep what the record has (R381). -/
def State.fabricSaved (s : State) (k : Nat) : Bool :=
  match (s.strand k).run with
  | .suspending _ _ saved => saved
  | _ => false

/-- STREAM_PUSH: the stream of a read port reads the elements of its next token and pushes it, or pushes its end-of-stream,
when the port has a free entry (R62, R249, R251). -/
def execStreamPush (t p : Nat) (s : State) : Host.Outcome State Fault Refusal :=
  let x := s.port t p
  if x.st = .unbound ∨ x.dirOut ∨ x.ended ∨ x.marker.isSome ∨ s.portFrozen t p ∨ s.fabricSaved x.strand ∨
      !s.portRoom t p then .next s
  else
    let r := s.readElems t ((if x.bcast then 1 else 8) - x.pack.length) x
    if !r.2.2 then .next (r.1.setPort t p r.2.1)
    else if r.2.1.pack.isEmpty then
      .next ((r.1.setPort t p { r.2.1 with ended := true }).push t p { Token.zero with tag := 7 })
    else .next ((r.1.setPort t p { r.2.1 with pack := [] }).push t p (packToken x.bcast r.2.1.pack))

/-- The element at a port's index stored: its physical span (R136, R249). A stream's writes trigger nothing before its release
(R27, R224). -/
def State.storeElem (s : State) (t : Nat) (x : Port) (v : BitVec 32) : Res (Nat × Nat) :=
  let va := elemAddr x.desc x.idx
  let n := elemBytes x.desc
  if va.toNat % n ≠ 0 then .trap (Trap.sync 0x03 va) s
  else (s.check (x.ctx t) va .store .plain).bind fun g s =>
    let perform (s : State) : State :=
      ((s.commit (x.ctx t) g).recordAccess (x.ctx t) g true).storeRaw none g.key (leBytes n v.toNat)
    (s.portTimeout t x va g perform).bind fun _ s => .ok (g.key, n) (perform s)

/-- The elements of one data token stored: lanes from the port's index on (R249). The result says whether the token is done
with. -/
def State.storeElems (s : State) (t : Nat) (k : Token) : Nat → Port → State × Port × Bool
  | 0, x => (s, x, true)
  | n + 1, x =>
    if elemCount x.desc ≤ x.idx then (s, x, true)
    else
      match s.storeElem t x (k.vals.getD (if x.bcast then 0 else x.idx % 8) 0) with
      | .ok w s => State.storeElems s t k n { x with idx := x.idx + 1, written := x.written ++ [w] }
      | .trap tr s => (s, { x with marker := some (tr.cause, tr.addr) }, false)
      | .wait s => (s, x, false)

/-- The load with the head token of port p's buffer gone. -/
def Load.popPort (l : Load) (p : Nat) : Load :=
  { l with bufs := l.bufs.setIfInBounds p ((l.bufs.getD p []).drop 1), quiet := 0 }

/-- WRITE_PORT_STORE: the stream of a write port stores the elements of its head token, ends at an end token, or discards a
data token past its pattern, which freezes the load (R221, R249). -/
def execWritePortStore (t p : Nat) (s : State) : Host.Outcome State Fault Refusal :=
  let x := s.port t p
  match (s.tile t).load? x.load with
  | none => .next s
  | some l =>
    if x.st = .unbound ∨ !x.dirOut ∨ x.ended ∨ x.marker.isSome ∨ s.fabricSaved x.strand then .next s
    else match l.bufs.getD p [] with
      | [] => .next s
      | k :: _ =>
        if 6 ≤ k.tag.toNat then
          let l := l.popPort p
          let e : Sink := if k.tag = 6 then .eeos else .eos
          .next ((s.putLoad t { l with ends := l.ends.setIfInBounds p e }).setPort t p { x with ended := true })
        else if elemCount x.desc ≤ x.idx then
          if l.report.isSome then .next s
          else .next (s.putLoad t ((l.popPort p).freeze (some { Report.plain 0x1B 1 with port := p })))
        else
          let r := s.storeElems t k (if x.bcast then 1 else 8 - x.idx % 8) x
          let s := r.1.setPort t p r.2.1
          .next (if r.2.2 then s.putLoad t (l.popPort p) else s)

/-- STREAM_FAULT: a port's fault is recorded, with STATE 0, and its owner's Fabric Fault becomes pending, unless an earlier
report awaits the owner's ERET; a save area that fails its checks seals the load (R223, R251, R270). -/
def execStreamFault (t p : Nat) (s : State) : Host.Outcome State Fault Refusal :=
  let x := s.port t p
  match x.marker with
  | none => .next s
  | some (cause, addr) =>
    let rep := { Report.plain cause 1 with port := p, addr := addr, written := true }
    let busy : Bool := match (s.tile t).load? x.load with
      | some l => l.report.isSome
      | none => (s.tile t).ports.any fun y => y.load == x.load && y.reported
    if x.st = .unbound ∨ x.reported ∨ busy then .next s
    else
      let id := (s.tile t).load? x.load
      let l := id.getD { (Image.load { bits := 0, total := 0 } x.load x.strand 0) with save := x.save }
      match s.writeReport t l rep 0 0 false with
      | .ok _ s =>
        let s := match id with
          | some l => s.putLoad t { l with report := some rep }
          | none => s
        .next ((s.setPort t p { x with reported := true }).mapStrand x.strand fun y => y.addFabric 0x0E addr)
      | .trap tr s => match s.finishOps t x.load with
        | .ok _ s => .next ((s.sealLoad t x.load rep).mapStrand x.strand fun y => y.addFabric 0x0E tr.addr)
        | .trap _ s => .next s
        | .wait s => .next s
      | .wait s => .next s

/-- STREAM_RELEASE: a port whose SREL has been issued and whose stream has ended performs its release; the port is unbound once the
triggers of its writes are enqueued (R224, R355). -/
def execStreamRelease (t p : Nat) (s : State) : Host.Outcome State Fault Refusal :=
  let x := s.port t p
  if x.st = .releasing ∧ x.ended then
    let s := s.startRelease t p
    .next (if s.owes (.stream x.bind) then s else s.releasePort t p)
  else .next s

/-! ## Splitting a reservation (R223, R394) -/

/-- V of R394: the lowest address that any element from the port's index on touches; the end of the range when the pattern
has ended. -/
def Port.position (x : Port) : Nat :=
  if elemCount x.desc ≤ x.idx then ((spanRange (rowSpans x.desc)).getD (0, 0)).2
  else (List.range (elemCount x.desc - x.idx)).foldl (fun m i => min m (elemAddr x.desc (x.idx + i)).toNat)
    (elemAddr x.desc x.idx).toNat

/-- An entry of die d after its binding's position is at virtual address line v: the lines below v leave it; none is left
when no remaining line is homed on the die (R394). -/
def RangeEnt.raise (e : RangeEnt) (d v : Nat) : Option RangeEnt :=
  let n := min e.nlines ((v - e.vlo) / 128)
  let e' : RangeEnt :=
    { e with vlo := e.vlo + 128 * n, plo := e.plo + 128 * n, nlines := e.nlines - n,
             splits := if n = 0 then e.splits else e.splits + 1 }
  if (List.range e'.nlines).any fun i => trackDie (e'.plo + 128 * i) == d then some e' else none

/-- The state after every die has applied position v to the entries of binding b. -/
def State.split (s : State) (b v : Nat) : State :=
  let raise (d : Nat) (m : MDie) : MDie :=
    { m with ranges := m.ranges.filterMap fun e =>
        if e.2.bind = b then (e.2.raise d v).map fun x => (e.1, x) else some e }
  { s with mdies := Vector.ofFn fun d : Fin 4 => raise d.val s.mdies[d] }

/-- The bindings of port p of tile t: the one that the port holds, and those of tasks suspended there (R386). -/
def State.bindingsAt (s : State) (t p : Nat) : List Port :=
  [s.port t p] ++ (s.dies.toList.flatMap fun d => d.resumeq.flatMap fun r => r.ctxs.flatMap fun c =>
    c.ports.filterMap fun e => if e.1 = p ∧ tileOf e.2.strand = t then some e.2 else none)

/-- RESERVATION_SPLIT: a port answers the position query that reached it first, and the lines below its position leave the
reservation (R394). -/
def execReservationSplit (t p : Nat) (s : State) : Host.Outcome State Fault Refusal :=
  let bindings := (s.bindingsAt t p).filter fun x => x.st != .unbound
  match s.queries.find? fun q => bindings.any fun x => x.bind == q.1 with
  | none => .next s
  | some q => match bindings.find? fun x => x.bind == q.1 with
    | some x => .next (({ s with queries := s.queries.erase q }).split x.bind (alignDown x.position 128))
    | none => .next s

end Sys2Proof.Machine
end

