-- ==== Sys2Proof/Machine/Suspend.lean ====
section
/-!
DEFINITION. Suspending a task and resuming it: the context record (R377 to R381), the resume queue (R382) and the restore
(R383).
-/

namespace Sys2Proof.Machine

/-! ## Writes that the hardware itself makes to HBM -/

/-- Doublewords as bytes. -/
def wordBytes (l : List Nat) : List Byte := l.flatMap (leBytes 8)

/-- The context of the hardware's own accesses for strand k. -/
def State.hardCtx (s : State) (k : Nat) : Ctx := { s.ctxOf k with party := none }

/-- The places among the n bytes at key where an access may be held: halves that the host or a peer holds, the first line that
each range reservation covers, and the lines that engines hold. -/
def State.heldPlaces (s : State) (key n : Nat) : List Nat :=
  let inside (a : Nat) : Bool := decide (key < a + 64) && decide (a < key + n)
  let halves := s.dir.flatMap fun e => [128 * e.1, 128 * e.1 + 64].filter inside
  let ranges := s.mdies.toList.zipIdx.flatMap fun m => m.1.ranges.filterMap fun e =>
    ((List.range e.2.nlines).map fun i => 128 * (lineOf e.2.plo + i)).find? fun a =>
      decide (key < a + 128) && decide (a < key + n) && trackDie a == m.2
  let engines := s.cmds.flatMap fun e => (e.2.lines.map fun l => 128 * l).filter fun a =>
    decide (key < a + 128) && decide (a < key + n)
  halves ++ ranges ++ engines

/-- What a hardware access to n bytes at key waits for: back-invalidates, or a reservation under whatever policy, with the
position query that policy split sends (R214, R223, R391, R394). -/
def State.homeCheck (s : State) (c : Ctx) (write : Bool) (key n : Nat) : Res Unit :=
  forEach (s.heldPlaces key n) (fun a s => match s.gate 0 a write false with
    | .open_ => .ok () s
    | g => .wait (s.hold c a g)) s

/-- A hardware write of bytes at an HBM address: no module copy of its lines stays. Poison stays: the write is neither an
instruction nor an engine unit (R388). -/
def State.homeWrite (s : State) (key : Nat) (bs : List Byte) : State :=
  let inside (l : Nat) : Bool := decide (lineOf key ≤ l) && decide (l ≤ lineOf (key + bs.length - 1))
  ({ s with dir := s.dir.map fun (e : Nat × DirLine) => if inside e.1 then (e.1, e.2.clear) else e }).store none key bs

/-- Regions (address, bytes) written, all of them or none yet. -/
def State.writeRegions (s : State) (c : Ctx) (l : List (Nat × List Byte)) : Res Unit :=
  (forEach l (fun r s => s.homeCheck c true r.1 r.2.length) s).bind fun _ s =>
    .ok () (l.foldl (fun s r => s.homeWrite r.1 r.2) s)

/-! ## The context record (R379, R380) -/

/-- The strand's task, or an empty one. -/
def Strand.taskOr (x : Strand) : Task := x.task.getD { id := 0, words := Vector.replicate 8 0, level := 0, gang := none }

/-- Whether the save includes vector registers and lane slices: FORCED. A request that was forced saves them, one taken at a
SETVL unforced does not, and any other suspension saves those of the lane groups that the strand holds (R37, R379; log 30). -/
def State.savesVectors (s : State) (k : Nat) : Bool :=
  match (s.strand k).reqAt with
  | some (_, forced, setvl) => forced || (!setvl && !(s.groupsOf k).isEmpty)
  | none => !(s.groupsOf k).isEmpty

/-- PENDING: bit c for each asynchronous cause c that is pending (R380). -/
def Pending.mask (p : Pending) : Nat :=
  let on (l : List Nat) (m : Nat) (c : Nat) : Nat := if l.contains c then m ||| 2 ^ c else m
  let l := (p.deferred ++ p.late).map (·.1.toNat) ++ p.engine.map (·.1.toNat) ++ p.fabric.map (·.1.toNat) ++
    p.gangAbort.map (fun _ => 0x12) ++ (if p.step then [0x15] else [])
  (List.range 29).foldl (on l) 0

/-- The eight doublewords of the header (R380). forced is FORCED; next is the page of the next member's record. -/
def State.header (s : State) (k : Nat) (forced : Bool) (next : Nat) : List Nat :=
  let x := s.strand k
  let g := x.taskOr.gang
  let b (p : Bool) (i : Nat) : Nat := if p then 2 ^ i else 0
  [1 <<< 56 ||| x.asid.toNat <<< 32 ||| (s.groupsOf k).length <<< 16 ||| (s.accen k).toNat <<< 8 ||| b g.isSome 3 |||
     b (s.ownsShadow k).isSome 2 ||| b (s.ownsActive k).isSome 1 ||| b forced 0,
   x.root.toNat <<< 12, x.taskOr.level.toNat <<< 62, s.clock,
   (match g with | some r => next <<< 12 ||| r.cask <<< 4 ||| r.member | none => 0),
   x.pend.mask, (match x.pend.deferred ++ x.pend.late with | e :: _ => e.2.toNat | [] => 0),
   (match x.pend.engine with | e :: _ => e.2.2.toNat | [] => 0)]

/-- Whether a word is an END (R227). -/
def isEnd (w : IWord) : Bool := field w 26 6 == 0x37 && field w 0 11 == 7

/-- The sixteen doublewords of scalar state at offset 0x140. The counters are those of an access that a forced pre-emption
stopped; zero otherwise (R379). Of an END that is to go on at a decrement the step is saved, so that nothing is made twice (R40; log
118). -/
def State.scalarBlock (s : State) (k : Nat) : List Nat :=
  let x := s.strand k
  let stopped := match x.reqAt with | some (_, f, _) => f | none => false
  let csr (n : Nat) : Nat := ((s.readCsr k n).getD 0).toNat
  let tl (n : Nat) : Nat := if stopped then csr n else 0
  let row := if (s.wordFrom k x.epc).any isEnd then csr 0x807 else tl 0x807
  [x.epc.toNat, csr 0x006, csr 0x000, csr 0x001, csr 0x002, csr 0x009, csr 0x00A, tl 0x805, tl 0x806, row, csr 0x008] ++
    List.replicate 5 0

/-- The task record as placed, with HINT replaced by the gang's cask (R379). -/
def Task.recordWords (t : Task) : List Nat :=
  let w := match t.gang with
    | some g => t.words.set 3 (setField t.words[3] 56 8 g.cask)
    | none => t.words
  w.toList.map BitVec.toNat

/-- The scope mask registers, word by word (R379). -/
def Strand.scopeWords (x : Strand) : List Nat :=
  x.scopes.toList.flatMap fun c => (List.range 11).map fun w => (c.word w).toNat

/-- The vector registers of lgn slots (R379). -/
def Strand.vectorBytes (x : Strand) (lgn : Nat) : List Byte :=
  (List.range lgn).flatMap fun j => x.v.toList.flatMap fun r => leBytes 256 (r.toNat >>> (2048 * j))

/-- The lane slices of the strand's groups, slot by slot (R379). -/
def State.sliceBytes (s : State) (k : Nat) : List Byte :=
  (s.groupsOf k).flatMap fun j => (List.range 4).flatMap fun i =>
    leBytes 4096 ((s.tile (tileOf k)).slices.getD (4 * j + i) 0).toNat

/-- The accumulators that the strand holds, each at its place in the record (R379). -/
def State.accRegions (s : State) (k base : Nat) : List (Nat × List Byte) :=
  ((List.range 8).filter fun n => (s.accen k).getLsbD n).map fun n =>
    (base + 0x3_2000 + 0x4000 * n, leBytes 16384 ((s.tile (tileOf k)).acc.getD n 0).toNat)

/-- The regions of a context record other than the handler's and the fabric's (R379). -/
def State.recordRegions (s : State) (k base : Nat) (forced : Bool) (next : Nat) : List (Nat × List Byte) :=
  let x := s.strand k
  [(base, wordBytes (s.header k forced next)), (base + 0x140, wordBytes (s.scalarBlock k)),
   (base + 0x1C0, wordBytes x.taskOr.recordWords), (base + 0x400, wordBytes x.scopeWords),
   (base + 0x1000, x.m.toList.flatMap fun m => leBytes 512 m.toNat)] ++
  (if forced then [(base + 0x2000, x.vectorBytes (s.groupsOf k).length), (base + 0x1_2000, s.sliceBytes k)] else []) ++
  s.accRegions k base

/-! ## The fabric regions (R381) -/

/-- Where in a load a token stands: an input channel of a cell, an output channel, a performed operation, the slot of a hop, a
port buffer. -/
inductive Spot where
  | inq (n k i : Nat)
  | outq (n k i : Nat)
  | op (n i : Nat)
  | hop (r h : Nat)
  | buf (p i : Nat)
deriving DecidableEq, Repr

/-- The token of a performed operation that waits for its channel (R261). -/
def CellOp.token (o : CellOp) : Token := { vals := o.data, tag := o.tag }

/-- The tokens in the links of the routes from an end, those that have come furthest first: a hop stands after the hops that
lead to it. -/
def Load.linkSpots (l : Load) (src : End) : List (Spot × Token) :=
  l.routes.zipIdx.flatMap fun r => if r.1.src ≠ src then [] else
    (r.1.hops.zipIdx.filterMap fun h => h.1.slot.map fun t => (Spot.hop r.2 h.2, t.1)).reverse

/-- The tokens of a queue, from its head. -/
def queueSpots (at_ : Nat → Spot) (q : List Token) : List (Spot × Token) := q.zipIdx.map fun t => (at_ t.2, t.1)

/-- The tokens that a load holds, by place, each place in queue order from the head: an input channel; an output channel with
the links that it feeds and the operations that wait behind it; a port with the links that it feeds (R269, R381). -/
def Load.spots (l : Load) : List (Nat × Spot × Token) :=
  let ofCell (e : Nat × Cell) : List (Nat × Spot × Token) :=
    ((List.range 4).flatMap fun k => (queueSpots (.inq e.1 k) (e.2.inq.getD k [])).map fun t => (8 * e.1 + k, t)) ++
    (List.range 4).flatMap fun k =>
      let ops := e.2.ops.zipIdx.filterMap fun o =>
        if o.1.done && o.1.chan == some k then some (Spot.op e.1 o.2, o.1.token) else none
      (l.linkSpots (.cell e.1 k) ++ queueSpots (.outq e.1 k) (e.2.outq.getD k []) ++ ops).map fun t => (8 * e.1 + 4 + k, t)
  l.cells.flatMap ofCell ++
  (List.range 16).flatMap fun p =>
    (l.linkSpots (.port p) ++ queueSpots (.buf p) (l.bufs.getD p [])).map fun t => (0x8000 + p, t)

/-- The load with the token at a spot replaced. -/
def Load.setSpot (l : Load) (t : Token) : Spot → Load
  | .inq n k i => let c := l.cell n
    l.setCell n { c with inq := c.inq.setIfInBounds k ((c.inq.getD k []).set i t) }
  | .outq n k i => let c := l.cell n
    l.setCell n { c with outq := c.outq.setIfInBounds k ((c.outq.getD k []).set i t) }
  | .op n i => let c := l.cell n
    l.setCell n { c with ops := c.ops.modify i fun o => { o with data := t.vals, tag := t.tag } }
  | .hop r h => { l with routes := l.routes.modify r fun x =>
      { x with hops := x.hops.modify h fun y => { y with slot := y.slot.map fun z => (t, z.2) } } }
  | .buf p i => { l with bufs := l.bufs.setIfInBounds p ((l.bufs.getD p []).set i t) }

/-- The four doublewords of a cell at +0x5400: MB, sink state, flags (R381). -/
def Cell.stateWords (c : Cell) : List Nat :=
  [c.mb, (match c.sink with | .none => 0 | .eos => 1 | .eeos => 2) <<< 62,
   (List.range 8).foldl (fun w i => w ||| (c.flags.getD i 0).toNat <<< (6 * i)) 0, 0]

/-- The tokens that a load which has ended has left in the port buffers of strand k's bindings (R266, R381). -/
def State.leftTokens (s : State) (t k : Nat) : List (Nat × Token) :=
  (List.range 16).flatMap fun p =>
    let x := s.port t p
    if x.st ≠ .unbound ∧ x.strand = k then x.buf.map fun y => (0x8000 + p, y) else []

/-- Every token that is saved for owner k of a tile, with its place: those of the active load, of the shadow load, and those left of
a load that has ended (R381). -/
def State.savedTokens (s : State) (t k : Nat) : List (Nat × Token) :=
  let of_ (l : Option Load) : List (Nat × Token) := ((l.map Load.spots).getD []).map fun x => (x.1, x.2.2)
  of_ (s.ownsActive k) ++ of_ (s.ownsShadow k) ++ s.leftTokens t k

/-- A scoreboard state as a number (R333). -/
def PortState.code : PortState → Nat
  | .unbound => 0 | .bound => 1 | .releasing => 2

/-- The regions of a tile's fabric state for owner k (R381). -/
def State.fabricRegions (s : State) (t k base : Nat) : List (Nat × List Byte) :=
  let a := s.ownsActive k
  let sh := s.ownsShadow k
  let toks := s.savedTokens t k
  let f := base + 0x5_2000
  let image (l : Option Load) : Nat := match l with | some l => l.image.toNat | none => 0
  let port (p : Nat) : List Byte :=
    let x := s.port t p
    if x.st ≠ .unbound ∧ x.strand = k then leBytes 32 (Config.portEntry x.st.code x.descAddr x.idx).toNat
    else leBytes 32 (Config.portEntry 0 0 0).toNat
  let cells (g : Cell → List Byte) : List Byte := match a with
    | some l => (List.range 64).flatMap fun n => g (l.cell n)
    | none => []
  let head := [(f, wordBytes ([image a, image sh, toks.length] ++ List.replicate 5 0)),
    (f + 0x40, (List.range 16).flatMap port)]
  let body := match a with
    | none => []
    | some l =>
      [(f + 0x1000, cells fun c => (List.range 8).flatMap fun r => (List.range 8).flatMap fun i =>
          leBytes 4 ((c.d.getD i (Vector.replicate 8 0)).getD r 0).toNat),
       (f + 0x5000, cells fun c => c.p.toList.flatMap fun p => leBytes 2 p.toNat),
       (f + 0x5400, cells fun c => wordBytes c.stateWords),
       (f + 0x6000, wordBytes ((List.range 512).map fun k => let r := l.spill.find (0, 0) k; r.1 ||| r.2 <<< 32))]
  let tokens := if toks.isEmpty then [] else [(base + 0x5_A000, toks.flatMap fun x => wordBytes (x.2.words x.1))]
  head ++ body ++ tokens

/-- FABRIC_SAVE: the active load of a tile whose owner suspends is saved at its drain, or, once the request is 2 ms old, by
freezing (R381). -/
def execFabricSave (t : Nat) (s : State) : Host.Outcome State Fault Refusal :=
  match (s.tile t).active with
  | none => .next s
  | some l =>
    match (s.strand l.owner).run with
    | .suspending base since false =>
      let save (s : State) (l : Load) : State :=
        let s := s.putLoad t l
        match s.writeRegions (s.hardCtx l.owner) (s.fabricRegions t l.owner base) with
        | .ok _ s => s.mapStrand l.owner fun x => { x with run := .suspending base since true }
        | .trap _ s => s
        | .wait s => s
      if l.drained && l.performed then .next (save s { l with frozen := true })
      else if s.clock < since + 2_000_000 then .next s
      else
        let l := { l with frozen := true }
        if l.performed && s.linksDone t l then .next (save s l) else .next (s.putLoad t l)
    | _ => .next s

/-! ## SUSPEND (R375, R377, R378) -/

/-- The resume entries of die d that are in its queue of 1,024: a task's, and a gang's once its last member has suspended. A gang
that becomes complete otherwise, because a member has ended, enters once an entry is free: the list has the complete entries in the
order in which they became so (R382; log 115). -/
def State.wholeEnts (s : State) (d : Nat) : List ResumeEnt := ((s.die d).resumeq.filter s.wholeEntry).take 1024

/-- Whether a strand is past its SUSPEND store. -/
def Strand.isSuspending (x : Strand) : Bool :=
  match x.run with
  | .suspending _ _ _ => true
  | _ => false

/-- Whether every member of gang g that is on a strand is past its SUSPEND store, strand k aside. -/
def State.gangSuspending (s : State) (k g : Nat) : Bool :=
  s.strands.all fun e => e.1 == k || !e.2.inGang g || e.2.isSuspending

/-- The entries of die d's resume queue, with those that its suspending strands will make: one for a task, one for a gang all of
whose members are suspended or past their SUSPEND stores (R382). -/
def State.resumeCount (s : State) (d : Nat) : Nat :=
  let mine := s.strands.filter fun e => dieOfStrand e.1 == d && e.2.isSuspending
  let ofTask (x : Strand) : Option Nat := x.taskOr.gang.map (·.id)
  let ofEntry (r : ResumeEnt) : Option Nat := (r.ctxs.head?.bind (·.gang)).map (·.id)
  let l := (s.die d).resumeq.map ofEntry ++ mine.map fun e => ofTask e.2
  (l.filter (·.isNone)).length + ((l.filterMap fun g => g).eraseDups.filter fun g => s.gangSuspending 20480 g).length

/-- Whether the suspension of strand k makes an entry: not that of a gang member before the last (R382). -/
def State.makesEntry (s : State) (k : Nat) : Bool :=
  match (s.strand k).taskOr.gang with
  | some g => s.gangSuspending k g.id
  | none => true

/-- A store of a context record's address to SUSPEND: an address that is not a 4 KiB-aligned one in HBM takes Access
Violation; while the die's resume queue is full the store waits; otherwise the strand suspends (R377, R378, R382). va is the
address that the store named. -/
def State.suspendTo (s : State) (va record : Word) : Res Unit :=
  if record.toNat % 0x1000 ≠ 0 ∨ 0xC0_0000_0000 ≤ record.toNat then .trap (Trap.sync 0x07 va) s
  else if s.makesEntry s.cur && decide (1024 ≤ s.resumeCount (dieOfStrand s.cur)) then .wait s
  else
    let since := match s.me.reqAt with | some (t, _, _) => t | none => s.clock
    .ok () (s.mapMe fun x => { x.retired with run := .suspending record.toNat since false, resv := none })

/-- SUSPEND: the store of a record's address by the issuing strand to the register of its own die (R377). -/
def execSuspendStore (addr : Word) (s : State) : Host.Outcome State Fault Refusal :=
  if s.me.run = .running ∧ s.me.pl then
    (s.suspendTo (BitVec.ofNat 64 (0xFF0_0000_0200 + 0x1000_0000 * dieOfStrand s.cur)) addr).finish
  else .next s

/-- Strand k's fabric load as it is kept while suspended: no port of the tile holds it, and it is frozen only if it had frozen
for a fault (R271, R381). -/
def Load.parked (l : Load) : Load := { l with frozen := (l.report.map (·.frozen)).getD false }

/-- Strand k's context as the resume queue keeps it (R382, R386). A fault marker is kept as the port's element (R381). -/
def State.savedCtx (s : State) (k record : Nat) : SavedCtx :=
  let x := s.strand k
  let ports := ((List.range 16).map fun p => (p, s.port (tileOf k) p)).filter fun e => e.2.st != .unbound && e.2.strand == k
  { record := record, task := x.taskOr.id, gang := x.taskOr.gang, pend := { x.pend with preempt := none, further := false }, since := Pending.none,
    partly := x.partly,
    ports := ports.map fun e => (e.1, { e.2 with marker := none, reported := false }),
    active := (s.ownsActive k).map Load.parked, shadow := (s.ownsShadow k).map Load.parked }

/-- A suspended context put into its die's resume queue; a gang's members share an entry, in the order of their numbers, that goes to
the queue's end with each. -/
def State.addResume (s : State) (d : Nat) (c : SavedCtx) (level : BitVec 2) : State :=
  let member (x : SavedCtx) : Nat := (x.gang.map (·.member)).getD 0
  let same (r : ResumeEnt) : Bool := c.gang.any fun g => r.isOf g.id
  let insert (r : ResumeEnt) : ResumeEnt :=
    { r with ctxs := (r.ctxs.filter fun x => decide (member x < member c)) ++ [c] ++
                     r.ctxs.filter fun x => decide (member c < member x), suspt := s.clock, stamp := s.clock }
  s.mapDie d fun x =>
    if x.resumeq.any same then
      { x with resumeq := (x.resumeq.filter fun r => !same r) ++ (x.resumeq.filter same).map insert }
    else { x with resumeq := x.resumeq ++ [{ ctxs := [c], level := level, suspt := s.clock, stamp := s.clock }] }

/-- The word of a record that chains it to the next member's (R380). -/
def chainWord (c : SavedCtx) (next : Nat) : Nat :=
  match c.gang with
  | some g => (next / 0x1000) <<< 12 ||| g.cask <<< 4 ||| g.member
  | none => 0

/-- The records of a gang's suspended members chained through NEXT, in the order of their numbers (R380, R382). -/
def State.chainGang (s : State) : List SavedCtx → State
  | [] => s
  | c :: r =>
    let s := if c.gang.isSome then s.homeWrite (c.record + 32) (leBytes 8 (chainWord c ((r.head?.map (·.record)).getD 0))) else s
    State.chainGang s r

/-- The strand's hold on its tile given up, its ports without their releases (R378, R386). -/
def State.vacate (s : State) (k : Nat) : State :=
  let t := tileOf k
  let drop (x : Port) : Port := if x.st ≠ .unbound ∧ x.strand = k then Port.fresh else x
  let s := s.mapTile t fun y => { y with ports := y.ports.map drop }
  ((((s.releaseGroups k).releaseAccs k).releaseLoads k).setFree k)

/-- SUSPEND_SAVE: once its earlier accesses are performed and its active load is saved, a suspending strand's record is
written, with the words that chain its gang's records, what it holds is released, and the record joins the resume queue (R378, R381, R382). -/
def execSuspendSave (k : Nat) (s : State) : Host.Outcome State Fault Refusal :=
  let x := s.strand k
  match x.run with
  | .suspending base _ fabric =>
    if !x.outst.isEmpty ∨ s.owesTrigger k ∨ ((s.ownsActive k).isSome ∧ !fabric) then .next s
    else
      let forced := s.savesVectors k
      let regions := s.recordRegions k base forced 0 ++
        (if (s.ownsActive k).isNone && (s.ownsShadow k).isSome then s.fabricRegions (tileOf k) k base else [])
      let prior := match x.taskOr.gang with
        | some g => ((s.die (dieOfStrand k)).resumeq.flatMap (·.ctxs)).filter fun y => (y.gang.map (·.id)) == some g.id
        | none => []
      let chained (s : State) : Res Unit := forEach prior (fun y s => s.homeCheck (s.hardCtx k) true (y.record + 32) 8) s
      match (chained s).bind fun _ s => s.writeRegions (s.hardCtx k) regions with
      | .ok _ s =>
        let d := dieOfStrand k
        let c := s.savedCtx k base
        let s := (s.vacate k).addResume d c x.taskOr.level
        let mine := (s.die d).resumeq.filter fun r => r.ctxs.any fun y => y.record == base && y.task == c.task
        .next (mine.foldl (fun s r => s.chainGang r.ctxs) s)
      | .trap _ s => .next s
      | .wait s => .next s
  | _ => .next s

/-! ## Restoring (R383) -/

/-- Doubleword i of a context record. -/
def State.recordWord (s : State) (c : SavedCtx) (off : Nat) : Word := s.load64 (c.record + off)

/-- LGN, or 0 when no vector state was saved (R380, R382). -/
def State.savedGroups (s : State) (c : SavedCtx) : Nat :=
  if (s.recordWord c 0).getLsbD 0 then field (s.recordWord c 0) 16 8 else 0

/-- ACCMASK (R380). -/
def State.savedAccs (s : State) (c : SavedCtx) : List Nat :=
  (List.range 8).filter fun n => (s.recordWord c 0).getLsbD (8 + n)

/-- Whether a tile can hold what a context needs (R382); a port that is bound again must have no other binding (R333; log 115). -/
def State.canHold (s : State) (t : Nat) (c : SavedCtx) : Bool :=
  let y := s.tile t
  decide (s.savedGroups c ≤ y.freeGroups.length) &&
  (s.savedAccs c).all (fun n => y.accOwner.getD n none == none) &&
  (!(s.recordWord c 0).getLsbD 1 || y.active.isNone) && (!(s.recordWord c 0).getLsbD 2 || y.shadow.isNone) &&
  c.ports.all fun p => (y.ports.getD p.1 Port.fresh).st == .unbound

/-- What is pending for a resumed task (R383): the causes of PENDING, with DEFADDR and ENGPTR, and what has arisen since. The
record holds no more of them; the rest is as it was at the suspension (log 29). -/
def State.restorePending (s : State) (c : SavedCtx) : Pending :=
  let on (b : BitVec 8) : Bool := (s.recordWord c 40).getLsbD b.toNat
  let p := c.pend
  let n := (p.deferred.filter fun e => on e.1).length
  let deferred := ((p.deferred ++ p.late).filter fun e => on e.1).zipIdx.map fun e =>
    (e.1.1, if e.2 = 0 then s.recordWord c 48 else e.1.2)
  let engine := (p.engine.filter fun e => on e.1).zipIdx.map fun e =>
    (e.1.1, e.1.2.1, if e.2 = 0 then BitVec.ofNat 64 (field (s.recordWord c 56) 0 57) else e.1.2.2)
  { deferred := deferred.take n ++ c.since.deferred, late := deferred.drop n, engine := engine ++ c.since.engine,
    fabric := (p.fabric.filter fun e => on e.1) ++ c.since.fabric,
    gangAbort := (if on 0x12 then p.gangAbort else []) ++ c.since.gangAbort, step := p.step && on 0x15, preempt := none,
    further := false }

/-- The scalar part of a strand restored from a record: it returns to EPC at user level, and its task has the level at which it is
placed (R380, R383). The registers that a forced pre-emption left partly loaded are busy in VPI until the load, at its counters,
completes (R163). -/
def State.restoreScalars (s : State) (c : SavedCtx) (level : BitVec 2) (x : Strand) : Strand :=
  let w := s.recordWord c
  let pc := w 0x140 &&& addrMask
  let t : Task :=
    { id := c.task, words := Vector.ofFn fun i : Fin 8 => w (0x1C0 + 8 * i.val), level := level,
      gang := c.gang }
  let st := w 0x148
  let ew : Width := [Width.w8, .w16, .w32, .w64, .w4, .w6].getD (field (w 0x150) 8 3) .w64
  let scope (k : Nat) : Scope := (List.range 11).foldl (fun m i => m.setWord i (w (0x400 + 88 * k + 8 * i))) Scope.empty
  let x : Strand :=
    { x with
      run := .running, pc := pc, epc := pc,
      g := Vector.ofFn fun i : Fin 32 => if i.val = 0 then 0 else w (0x40 + 8 * i.val)
      m := Vector.ofFn fun i : Fin 8 => BitVec.ofNat 4096 (leNat (memGetBytes s.mem (c.record + 0x1000 + 512 * i.val) 512))
      v := Vector.replicate 32 0, vl := field (w 0x160) 0 13, ew := ew, rm := BitVec.ofNat 3 (field (w 0x150) 0 3),
      empty := (w 0x158).getLsbD 8, vflags := BitVec.ofNat 6 (field (w 0x158) 0 6), vpi := 0,
      pl := false, ppl := false, ss := st.getLsbD 12, pss := st.getLsbD 12, ta := false,
      fflags := BitVec.ofNat 6 (field st 0 6), eeos := (w 0x190).getLsbD 9, rflags := BitVec.ofNat 6 (field (w 0x190) 16 6),
      rngSeed := w 0x168, rngCtr := w 0x170, trow := BitVec.ofNat 6 (field (w 0x188) 0 6),
      scopes := Vector.ofFn fun i : Fin 16 => scope i.val,
      root := BitVec.ofNat 40 (field (w 8) 12 40), asid := BitVec.ofNat 16 (field (w 0) 32 16), resv := none,
      task := some t, pend := s.restorePending c, resume := true, outst := [], lost := none, engwait := false, asked := [],
      walks := [], kept := [], part := none, partly := 0, begun := none, reqAt := none }
  let x := (x.setTlg 0 (w 0x178)).setTlg 4 (w 0x180)
  let midway := x.tlg.any (fun n => n != 0) || x.trow != 0
  { x with partly := if x.tlg.all (· == 0) then 0 else c.partly, pend := if midway then x.pend else x.pend.arrived }

/-- The vector registers of lgn slots read back from a record (R383). -/
def State.savedVectors (s : State) (c : SavedCtx) (lgn : Nat) : Vector VReg 32 :=
  Vector.ofFn fun k : Fin 32 => BitVec.ofNat 16384 ((List.range lgn).foldl (fun v j =>
    v + leNat (memGetBytes s.mem (c.record + 0x2000 + 8192 * j + 256 * k.val) 256) <<< (2048 * j)) 0)

/-- The lane slices of the groups taken read back from a record, slot j into the j-th group (R383). -/
def State.restoreSlices (s : State) (t : Nat) (c : SavedCtx) (groups : List Nat) : State :=
  groups.zipIdx.foldl (fun s g => (List.range 4).foldl (fun s i =>
    let v : Slice := BitVec.ofNat 32768 (leNat (memGetBytes s.mem (c.record + 0x1_2000 + 16384 * g.2 + 4096 * i) 4096))
    s.mapTile t fun y => { y with slices := y.slices.setIfInBounds (4 * g.1 + i) v }) s) s

/-- The accumulators of a record taken again under their numbers (R201, R383). -/
def State.restoreAccs (s : State) (k : Nat) (c : SavedCtx) : State :=
  (s.savedAccs c).foldl (fun s n =>
    let v : Acc := BitVec.ofNat 131072 (leNat (memGetBytes s.mem (c.record + 0x3_2000 + 0x4000 * n) 16384))
    s.mapTile (tileOf k) fun y =>
      { y with accOwner := y.accOwner.setIfInBounds n (some (subOf k)), acc := y.acc.setIfInBounds n v }) s

/-- A cell of an active load as the record has it: data registers, predicates, MB, sink state and flags (R381). f is the address
of the fabric state region. -/
def State.restoreCell (s : State) (f n : Nat) (c : Cell) : Cell :=
  let w (i : Nat) : Word := s.load64 (f + 0x5400 + 32 * n + 8 * i)
  { c with
    d := Vector.ofFn fun i : Fin 8 => Vector.ofFn fun r : Fin 8 =>
      BitVec.ofNat 32 (s.load (f + 0x1000 + 256 * n + 32 * r.val + 4 * i.val) 4)
    p := Vector.ofFn fun i : Fin 8 => BitVec.ofNat 16 (s.load (f + 0x5000 + 16 * n + 2 * i.val) 2)
    mb := (w 0).toNat
    sink := (match field (w 1) 62 2 with | 1 => .eos | 2 => .eeos | _ => .none)
    flags := Vector.ofFn fun i : Fin 8 => BitVec.ofNat 6 (field (w 2) (6 * i.val) 6) }

/-- The token at an entry of the token region: lanes and tag (R381). -/
def State.savedToken (s : State) (a : Nat) : Token :=
  { vals := Vector.ofFn fun i : Fin 8 => BitVec.ofNat 32 (s.load (a + 4 * i.val) 4), tag := BitVec.ofNat 3 (s.load (a + 32) 1) }

/-- The tokens of the token region of a record, each with its place (bytes 34 and 35), in their order (R381). -/
def State.recordTokens (s : State) (base : Nat) : List (Nat × Token) :=
  (List.range (min 3456 (s.load (base + 0x5_2010) 8))).map fun i =>
    let a := base + 0x5_A000 + 64 * i
    (s.load (a + 34) 2, s.savedToken a)

/-- The load with saved tokens at its spots, those of one place in their order, from the head, and the tokens that are left for others
(R381). -/
def restoreTokens : List (Nat × Token) → List (Nat × Spot × Token) → Load → Load × List (Nat × Token)
  | m, [], l => (l, m)
  | m, x :: r, l =>
    match m.find? fun y => y.1 == x.1 with
    | some y => restoreTokens (m.erase y) r (l.setSpot y.2 x.2.1)
    | none => restoreTokens m r l

/-- An active load as the record has it, its tokens apart: its cells and the rings of its spilled channels (R381, R383). -/
def State.restoreActive (s : State) (base : Nat) (l : Load) : Load :=
  let f := base + 0x5_2000
  let ring (k : Nat) : Nat × Nat := (s.load (f + 0x6000 + 8 * k) 4, s.load (f + 0x6000 + 8 * k + 4) 4)
  { l with cells := l.cells.map fun e => (e.1, s.restoreCell f e.1 e.2),
           spill := ((List.range 512).map fun k => (k, ring k)).foldl (fun t e => if e.2 = (0, 0) then t else t.put e.1 e.2) [] }

/-- A load with its saved tokens, if there is a load, and the tokens that are left for others. -/
def loadTokens (m : List (Nat × Token)) : Option Load → Option Load × List (Nat × Token)
  | some l => let r := restoreTokens m l.spots l; (some r.1, r.2)
  | none => (none, m)

/-- The fabric loads and port bindings of a context established again on strand k: what the record holds of them from the record, and
the rest as it was at the suspension (R383; log 29). The token region has the active load's tokens before the shadow load's, and those
of ports whose load has ended after both; a task that owned no load wrote no region (R379, R381). -/
def State.restoreFabric (s : State) (k : Nat) (c : SavedCtx) : State :=
  let t := tileOf k
  let owned := c.active.isSome || c.shadow.isSome
  let a := loadTokens (if owned then s.recordTokens c.record else []) (c.active.map fun l => { s.restoreActive c.record l with owner := k })
  let sh := loadTokens a.2 (c.shadow.map fun l => { l with owner := k })
  let left (p : Nat × Port) : List Token :=
    let l := (sh.2.filter fun x => x.1 == 0x8000 + p.1).map (·.2)
    if owned && decide (p.2.buf.length ≤ l.length) then l.take p.2.buf.length else p.2.buf
  let s := s.mapTile t fun y => { y with active := a.1 <|> y.active, shadow := sh.1 <|> y.shadow }
  let s := c.ports.foldl (fun s p => s.setPort t p.1 { p.2 with strand := k, buf := left p }) s
  (a.1.toList ++ sh.1.toList).foldl (fun s l => s.shareSave t l) s

/-- A suspended context restored on strand k at a level (R383). -/
def State.restoreOn (s : State) (k : Nat) (c : SavedCtx) (level : BitVec 2) : State :=
  let t := tileOf k
  let groups := (s.tile t).freeGroups.take (s.savedGroups c)
  let s := s.setStrand k (s.restoreScalars c level (s.strand k))
  let s := groups.foldl (fun s j => s.takeGroup k j) s
  let s := s.mapStrand k fun x => { x with v := s.savedVectors c groups.length }
  ((s.restoreSlices t c groups).restoreAccs k c).restoreFabric k c

/-- The strand of die d on which a task's context is restored: chosen as R31 chooses, among the strands that meet the
conditions of R382. -/
def State.resumeStrand (s : State) (d : Nat) (c : SavedCtx) : Option Nat :=
  let fits (t : Nat) : Bool := !(s.freeStrands t).isEmpty && s.canHold t c
  let open_ := (casksOf d).filter fun x =>
    !(s.reservedCasks d).contains x && (List.range 4).any fun i => fits (4 * x + i)
  let w3 := s.recordWord c (0x1C0 + 24)
  let hint := if (s.recordWord c 0x1C0).getLsbD 61 then some (field w3 56 8) else none
  let cask := match hint.filter fun x => s.wholeCask x && open_.contains x with
    | some x => some x
    | none => leastBy s.caskOccupied open_
  cask.bind fun x =>
    (leastBy s.occupied (((List.range 4).map fun i => 4 * x + i).filter fits)).bind fun t => (s.freeStrands t).head?

/-- The members of a suspended gang restored in its cask, in order, as long as each one's tile meets the conditions. -/
def restoreGang (level : BitVec 2) : List SavedCtx → State → Option State
  | [], s => some s
  | c :: r, s =>
    match c.gang with
    | none => none
    | some g =>
      let t := 4 * g.cask + g.member % 4
      match s.freeStrands t with
      | [] => none
      | k :: _ => if s.canHold t c then restoreGang level r (s.restoreOn k c level) else none

/-- The state after a resume entry is placed, if it can be (R382). No gang is placed in a cask with a frozen share (R387). -/
def State.placeResume (s : State) (d : Nat) (r : ResumeEnt) : Option State :=
  match r.ctxs with
  | [] => none
  | c :: _ =>
    match c.gang with
    | some g => if s.frozen.any (fun f => f.cask == g.cask) || (s.reservedCasks d).contains g.cask then none
      else restoreGang r.level r.ctxs s
    | none => (s.resumeStrand d c).map fun k => s.restoreOn k c r.level

/-- The entry with the least suspension time, the earliest of equals, first. -/
def insertBySuspt (e : ResumeEnt) : List ResumeEnt → List ResumeEnt
  | [] => [e]
  | x :: l => if e.suspt < x.suspt then e :: x :: l else x :: insertBySuspt e l

/-- The complete resume entries of die d at level l, in order of SUSPT (R382). -/
def State.resumeAt (s : State) (d l : Nat) : List ResumeEnt :=
  ((s.wholeEnts d).filter fun r => r.level.toNat == l).foldl (fun acc e => insertBySuspt e acc) []

/-- The first resume entry of level l that can be placed, with the state after it. -/
def State.firstResumeAt (s : State) (d l : Nat) : Option (ResumeEnt × State) :=
  (s.resumeAt d l).findSome? fun r => (s.placeResume d r).map fun s' => (r, s')

/-- The first queue record of level l that can be placed. -/
def State.firstRecordAt (s : State) (d l : Nat) : Option (QRec × List Nat) :=
  (atLevel (s.die d).queue l).findSome? fun r => (s.recordPlace d r).map fun p => (r, p)

/-- What the dispatcher's scan finds: at each level the resume entries come before the queue records (R357, R382). -/
inductive Found where
  | resume (r : ResumeEnt) (s : State)
  | record (r : QRec) (p : List Nat)
deriving DecidableEq, Repr

/-- Whether the compute dies run: not held in reset before stage 5, and not halted (R400). -/
def State.diesRun (s : State) : Bool := s.cogor.stage == 5 || s.cogor.stage == 6

/-- The scan of die d's dispatcher, while no reset or halt holds it (R357, R382, R400). -/
def State.scan (s : State) (d : Nat) : Option Found :=
  if !s.diesRun then none else
  (List.range 4).findSome? fun l =>
    match s.firstResumeAt d l with
    | some (r, s') => some (.resume r s')
    | none => (s.firstRecordAt d l).map fun x => .record x.1 x.2

/-- The context of a dispatcher's own reads. -/
def dispatcherCtx (d : Nat) : Ctx :=
  { tile := 160 * d, root := 0, asid := 0, sup := true, party := none, bind := 0, who := .dispatcher d }

/-- What the reading of a resume entry's records waits for (R223, R391). -/
def State.recordsReady (s : State) (d : Nat) (r : ResumeEnt) : Res Unit :=
  forEach r.ctxs (fun c s => s.homeCheck (dispatcherCtx d) false c.record 0x9_0000) s

/-- RESUME_PLACE: the first thing the scan can place is a resume entry: its records are restored and it leaves the queue
(R382, R383). -/
def execResumePlace (d : Nat) (s : State) : Host.Outcome State Fault Refusal :=
  match s.scan d with
  | some (.resume r s') =>
    match s.recordsReady d r with
    | .ok _ _ => .next (s'.mapDie d fun x => { x with resumeq := x.resumeq.filter fun e => e != r })
    | .trap _ s => .next s
    | .wait s => .next s
  | _ => .next s

end Sys2Proof.Machine
end

