-- ==== Sys2Proof/Machine/Dispatcher.lean ====
section
/-!
DEFINITION. The dispatchers' events: arrival of triggers (R29, R30, R353), placing (R357), aging and gang reservation
(R356, R357), full queues (R355), boot launches and the handler address (R359).
-/

namespace Sys2Proof.Machine

/-! ## Triggers on their way (R30, R353) -/

/-- Whether the idx-th trigger on its way is the next to arrive at its watch table: it is due, no trigger of its directory
slice to the same die was sent before it, and no trigger to that die arrives earlier (R27, R353). -/
def State.triggerArrives (s : State) (idx : Nat) (t : Trigger) : Bool :=
  decide (t.due ≤ s.clock) &&
  (s.triggers.take idx).all (fun u => u.die != t.die || u.slice != t.slice) &&
  s.triggers.all fun u => u.die != t.die || decide (t.due ≤ u.due)

/-- WATCH_TRIGGER: a trigger arrives at its watch table and is judged by the entry as it then stands (R30). -/
def execWatchTrigger (idx : Nat) (s : State) : Host.Outcome State Fault Refusal :=
  match s.triggers[idx]? with
  | some t =>
    if s.triggerArrives idx t then .next ({ s with triggers := s.triggers.eraseIdx idx }.deliver t) else .next s
  | none => .next s

/-! ## Placing -/

/-- DISPATCH_PLACE: the first thing that the scan of die d can place is a queue record (R357). -/
def execDispatchPlace (d : Nat) (s : State) : Host.Outcome State Fault Refusal :=
  match s.scan d with
  | some (.record r p) => .next (s.place d r p)
  | _ => .next s

/-- AGING_PROMOTE: of the records that have waited 1 ms at their level, the one that has been due the longest joins the tail of
the next higher one (R356). Slots 0 to 4095 name queue slots, those from 4096 on the resume queue's entries, which age alike
(R382). -/
def execAgingPromote (d slot : Nat) (s : State) : Host.Outcome State Fault Refusal :=
  if slot < 4096 then
    match s.firstDue d with
    | some r => if r.slot = slot then .next (s.promote d r) else .next s
    | none => .next s
  else .next (s.mapDie d fun x => { x with resumeq := x.resumeq.modify (slot - 4096) fun r => s.ageEntry r 1 })

/-- The cask that a gang of die d may reserve now: its hinted cask, or the one that R31 chooses among the whole casks that
no gang has reserved (R31, R357). -/
def State.reservable (s : State) (d : Nat) (r : QRec) : Option Nat :=
  let free (c : Nat) : Bool := s.wholeCask c && !(s.reservedCasks d).contains c
  match s.gangHint r.words with
  | some c => if free c then some c else none
  | none => leastBy s.caskOccupied ((casksOf d).filter free)

/-- Whether a gang of die d has waited 100 µs without a reservation and could take one (R356, R357). -/
def State.wantsCask (s : State) (d : Nat) (r : QRec) : Bool :=
  r.members != 0 && r.rcask.isNone && decide (r.enq + 100_000 ≤ s.clock) && (s.reservable d r).isSome

/-- GANG_RESERVE: a gang that has waited 100 µs takes a cask; at most eight casks of a die are reserved, by gangs in order of
ENQ (R357). -/
def execGangReserve (d slot : Nat) (s : State) : Host.Outcome State Fault Refusal :=
  match (s.die d).queue.find? fun r => r.slot == slot with
  | some r =>
    let first := (s.die d).queue.all fun q => !s.wantsCask d q || decide (r.enq ≤ q.enq)
    if s.wantsCask d r && first && decide ((s.reservedCasks d).length < 8) then
      let c := s.reservable d r
      .next (s.mapDie d fun x => { x with queue := x.queue.map fun q => if q.slot = slot then { q with rcask := c } else q })
    else .next s
  | none => .next s

/-! ## A full queue (R355) -/

/-- The place in the list of the record that die d's queue takes next: triggers before boot launches, each in order. -/
def State.nextWaiting (s : State) (d : Nat) : Option Nat :=
  match s.waiting.findIdx? fun w => w.die == d && w.rcd.origin == 2 with
  | some i => some i
  | none => s.waiting.findIdx? fun w => w.die == d

/-- QUEUE_SLOT_FREE: die d's queue has a free slot, and takes the first record that waits for one (R355). -/
def execQueueSlotFree (d : Nat) (s : State) : Host.Outcome State Fault Refusal :=
  match s.nextWaiting d with
  | some i =>
    match s.waiting[i]? with
    | some w =>
      if (s.die d).queue.length < 4096 then
        .next (({ s with waiting := s.waiting.eraseIdx i }.enqueue d { w.rcd with enq := s.clock, stamp := s.clock }).countFired
          w.entry)
      else .next s
    | none => .next s
  | none => .next s

/-! ## Boot launches and the handler address (R359) -/

/-- The place of a physical address as the dispatcher of die d names it, without translation (R47, R50, R359). -/
def State.physicalPlace (s : State) (d a : Nat) : Place := s.resolveAlias (placeOf (160 * d) a)

/-- The task record at a physical address: none where R47 places no memory, in a peer window before the domain number is written, and at
a peer's address outside its HBM and Cellar (R50, R359, R398). -/
def State.physicalRecord (s : State) (d a : Nat) : Option (Vector Word 8) :=
  let p := s.physicalPlace d a
  let memory : Bool := match p with
    | .control _ | .unmapped => false
    | .peer _ _ => s.mayReach (160 * d) p
    | _ => true
  if memory then some (Vector.ofFn fun i : Fin 8 => s.load64 (p.key + 8 * i.val)) else none

/-- What stands before the reading of the record that a write to the boot launch register of die d names: it counts only in stage 5,
while Cogor holds the die in bring-up (R223, R359, R391, R400, R401). -/
def State.bootlrGate (s : State) (d : Nat) (addr : Word) : Gate :=
  let a := field addr 0 57
  let p := s.physicalPlace d a
  if s.cogor.stage ≠ 5 ∨ !s.cogor.bringup.getLsbD d ∨ a % 64 ≠ 0 ∨ !p.coherent then .open_ else s.gate 0 p.key false false

/-- A write to the boot launch register of die d. The record has ORIGIN 3, ASID 0 and physical addresses, and its hint may forward it
(R350, R359). A record that is misaligned, malformed or in no memory is ignored (log 31); while the reading of it has
to wait, the write has no other effect than what that wait asks for. -/
def State.bootlrWrite (s : State) (d : Nat) (addr : Word) : State :=
  let a := field addr 0 57
  if s.cogor.stage ≠ 5 ∨ !s.cogor.bringup.getLsbD d ∨ a % 64 ≠ 0 then s else
  match s.bootlrGate d addr with
  | .open_ => match s.physicalRecord d a with
    | some w => if recordOk w then s.enqueueOrWait (recordDie d w) (s.newRec w 3 0 0 0 0) none none else s
    | none => s
  | g => s.hold (dispatcherCtx d) (s.physicalPlace d a).key g

/-- BOOTLR (R359). -/
def execBootlr (d : Nat) (addr : Word) (s : State) : Host.Outcome State Fault Refusal := .next (s.bootlrWrite d addr)

/-- HVEC of die d written: every strand of the die takes it into TVEC (R359). -/
def State.hvecWrite (s : State) (d : Nat) (v : Word) : State :=
  let h := v &&& addrMask
  { s.mapDie d fun x => { x with hvec := h } with
    strands := s.strands.map fun e => if dieOfStrand e.1 = d then (e.1, { e.2 with tvec := h }) else e }

/-- HVEC (R359). -/
def execHvec (d : Nat) (addr : Word) (s : State) : Host.Outcome State Fault Refusal :=
  if d < 4 then .next (s.hvecWrite d addr) else .next s

end Sys2Proof.Machine
end

