-- ==== Sys2Proof/Machine/Registers.lean ====
section
/-!
DEFINITION. What the registers of the control space read as: dispatchers (R359, R375), watch tables (R352), queue records
(R354), telemetry and governor (R412, R413), range reservation tables (R393), the Cogor mailbox (R404, R408, R417, R418).
An offset that no table assigns reads as zero (R347).
-/

namespace Sys2Proof.Machine

/-! ## A compute die's block -/

/-- The records of die d at a level. -/
def State.occ (s : State) (d l : Nat) : Nat := (atLevel (s.die d).queue l).length

/-- PPEND word w of die d: the pending pre-emption requests of its local strands (R375). -/
def State.ppend (s : State) (d w : Nat) : Word :=
  (List.range 64).foldl (fun v b => v ||| atB (s.strand (640 * d + 64 * w + b)).pend.preempt.isSome b) 0

/-- The dispatcher register at offset b of die d's block (R359, R375). -/
def State.dispatcherReg (s : State) (d b : Nat) : Word :=
  if b = 0 then at_ (s.occ d 3) 48 ||| at_ (s.occ d 2) 32 ||| at_ (s.occ d 1) 16 ||| at_ (s.occ d 0) 0
  else if b = 0x8 then at_ (s.reservedCasks d).length 0
  else if b = 0x18 then zext (s.die d).dlost
  else if b = 0x20 then (s.die d).hvec
  else if 0x180 ≤ b ∧ b < 0x1D0 then s.ppend d ((b - 0x180) / 8)
  else if b = 0x208 then at_ (s.wholeEnts d).length 0
  else 0

/-- The state word of a watch entry (R352). -/
def WatchEnt.stateWord (e : WatchEnt) : Word :=
  atB e.bound 63 ||| atB e.latched.isSome 62 ||| at_ e.asid.toNat 32 ||| zext e.fired

/-- Doubleword w of a watch table entry: the descriptor with ARMED for ARM, the state word, zeros (R352). -/
def WatchEnt.word (e : WatchEnt) (w : Nat) : Word :=
  if w = 1 then (e.desc[1] &&& ~~~(0x200 : Word)) ||| atB e.armed 9
  else if w < 8 then e.desc.getD w 0
  else if w = 8 then e.stateWord
  else 0

/-- Doubleword w of a queue record (R354). -/
def QRec.word (r : QRec) (w : Nat) : Word :=
  if w < 8 then r.words.getD w 0
  else if w = 8 then
    atB true 63 ||| at_ r.level.toNat 61 ||| at_ r.origin.toNat 59 ||| at_ r.members 54 ||| atB r.rcask.isSome 53 |||
    at_ r.asid.toNat 32 ||| at_ (r.rcask.getD 0) 0
  else if w = 9 then r.g2
  else if w = 10 then at_ r.enq 0
  else if w = 11 then at_ r.root.toNat 12
  else 0

/-- A word of a slot or an entry that has been given up: its VALID bit is 0 and its reserved bits read as zero (R9); the bits of
its other fields, which the mask names, are free values (log 33). -/
def State.staleWord (s : State) (mask : Word) : Word × State := (s.free.1 &&& mask, s.free.2)

/-- The bits of word w of a queue record that a field other than VALID has, in a slot that is not in use (R348, R354). -/
def queueFields (w : Nat) : Word :=
  if w = 0 then 0xE1FF_FFFF_FFFF_FFFF
  else if w = 3 then 0xFF1F_FFFF_FFFF_FFFF
  else if w < 8 then 0x01FF_FFFF_FFFF_FFFF
  else if w = 8 then 0x7FE0_FFFF_0000_00FF
  else if w = 11 then 0x000F_FFFF_FFFF_F000
  else 0xFFFF_FFFF_FFFF_FFFF

/-- The bits of word w of a range reservation entry that a field other than VALID has (R393). -/
def rangeFields (w : Nat) : Word :=
  if w = 0 then 0x7FFF_FF00_FFFF_FFFF
  else if w = 1 then 0x01FF_FFFF_FFFF_FFFF
  else if w = 2 then 0x000F_FFFF_FFFF_FFFF
  else 0x0000_0000_FFFF_FFFF

/-- Doubleword w of queue slot n of die d: zero for a slot that has not been in use since reset (R354). -/
def State.queueWord (s : State) (d n w : Nat) : Word × State :=
  match (s.die d).queue.find? fun r => r.slot == n with
  | some r => (r.word w, s)
  | none => if n < (s.die d).used then s.staleWord (queueFields w) else (0, s)

/-- The doubleword at offset b of die d's block (R347). -/
def State.dieReg (s : State) (d b : Nat) : Word × State :=
  if b < 0x1000 then (s.dispatcherReg d b, s)
  else if 0x1_0000 ≤ b ∧ b < 0x3_0000 then
    (((s.die d).watch.find WatchEnt.reset ((b - 0x1_0000) / 128)).word ((b - 0x1_0000) % 128 / 8), s)
  else if 0x10_0000 ≤ b ∧ b < 0x16_0000 then s.queueWord d ((b - 0x10_0000) / 96) ((b - 0x10_0000) % 96 / 8)
  else (0, s)

/-! ## A memory-side die's block -/

/-- Doubleword w of a range reservation entry (R393). -/
def RangeEnt.word (e : RangeEnt) (w : Nat) : Word :=
  if w = 0 then
    atB true 63 ||| atB e.write 62 ||| at_ e.policy.toNat 60 ||| at_ e.rscope.toNat 56 ||| at_ e.strand 44 |||
    at_ e.port 40 ||| zext e.splits
  else if w = 1 then at_ e.vlo 0
  else if w = 2 then at_ e.plo 0
  else at_ e.nlines 0

/-- Doubleword w of entry n of the range reservation table of memory-side die d (R393). -/
def State.rangeWord (s : State) (d n w : Nat) : Word × State :=
  match (s.mdie d).ranges.get? n with
  | some e => (e.word w, s)
  | none => if n < (s.mdie d).used then s.staleWord (rangeFields w) else (0, s)

/-- The doubleword at offset b of memory-side die d's block (R393, R412, R413). -/
def State.mdieReg (s : State) (d b : Nat) : Word × State :=
  let m := s.mdie d
  if b < 0x78 then (m.counters.getD (b / 8) 0, s)
  else if b = 0x1000 then (at_ m.plim.toNat 32 ||| at_ m.tlim.toNat 24, s)
  else if b = 0x1008 then (at_ m.pwr.toNat 48 ||| at_ m.temp.toNat 40 ||| at_ m.freq.toNat 16, s)
  else if 0x100_0000 ≤ b ∧ b < 0x101_0000 then s.rangeWord d ((b - 0x100_0000) / 32) ((b - 0x100_0000) % 32 / 8)
  else (0, s)

/-! ## The Cogor mailbox -/

/-- The Cogor status register (R408). -/
def Cogor.status (c : Cogor) : Word :=
  at_ c.stage.toNat 56 ||| at_ c.err.toNat 48 ||| atB c.slotB 47 ||| at_ c.svnf 40 ||| at_ c.alarms.toNat 4 |||
  at_ c.bringup.toNat 0

/-- The doubleword at offset b of the Cogor mailbox (R404, R417, R418). -/
def Cogor.reg (c : Cogor) (b : Nat) : Word :=
  if b = 0 then c.status
  else if b = 0x108 then at_ c.rstate.toNat 62 ||| at_ c.rtile.toNat 0
  else if b = 0x110 then c.partNext
  else if 0x140 ≤ b ∧ b < 0x190 then BitVec.ofNat 64 (c.retmap.toNat >>> (8 * (b - 0x140)))
  else 0

/-! ## The control space -/

/-- The doubleword at offset o of the control space (R347). -/
def State.controlRead (s : State) (o : Nat) : Word × State :=
  if o < 0x4000_0000 then s.dieReg (o / 0x1000_0000) (o % 0x1000_0000)
  else if 0x8_0000_0000 ≤ o ∧ o < 0x8_4000_0000 then
    s.mdieReg ((o - 0x8_0000_0000) / 0x1000_0000) ((o - 0x8_0000_0000) % 0x1000_0000)
  else if 0xF_0000_0000 ≤ o ∧ o < 0xF_0001_0000 then (s.cogor.reg (o - 0xF_0000_0000), s)
  else (0, s)

end Sys2Proof.Machine
end

