-- ==== Sys2Proof/Machine/Dump.lean ====
section
/-!
DEFINITION. Fatal errors and the dump (R409, R410, R420).
-/

namespace Sys2Proof.Machine

/-- The physical address of the dump region (R409). -/
def dumpBase : Nat := 0xBF_8000_0000

/-- Word 0 of the dump header. -/
def State.dumpWord0 (s : State) : Word := s.load64 dumpBase

/-- VALID of the dump header (R410). -/
def State.dumpValid (s : State) : Bool := s.dumpWord0.getLsbD 63

/-- Bytes that Cogor writes at an offset of the dump region. -/
def State.dumpWrite (s : State) (off : Nat) (bs : List Byte) : State :=
  { s with mem := memSetBytes s.mem (dumpBase + off) bs }

/-- The state in which no half of the dump region is held outside the module: what Cogor writes on a fatal error takes back at once the
copies that the host has read (R391, R410; log 81). -/
def State.ownDump (s : State) : State :=
  { s with dir := s.dir.map fun e =>
      if decide (dumpBase ≤ 128 * e.1) && decide (128 * e.1 < 0xC0_0000_0000) then (e.1, { e.2 with lo := .n, hi := .n, loBy := [], hiBy := [] })
      else e }

/-- Bit 63 or 62 of header word 0 set or cleared. -/
def State.setDumpBit (s : State) (i v : Nat) : State :=
  s.dumpWrite 0 (leBytes 8 (setField s.dumpWord0 i 1 v).toNat)

/-- Doubleword w of an image's header (R402). -/
def imageWord (img : List Byte) (w : Nat) : Word := BitVec.ofNat 64 (leNat ((img.drop (8 * w)).take 8))

/-- The header of a new dump, with VALID = 0 (R410). -/
def State.dumpHeader (s : State) (cause unit : Nat) : List Byte :=
  wordBytes [1 <<< 32 ||| 0x504D_5544, (cause % 256) <<< 56 ||| (unit % 256) <<< 40 ||| 5 <<< 32, s.clock % 2 ^ 64,
    (imageWord s.cogor.running 3).toNat]

/-! ## The sections -/

/-- The strand as a forced pre-emption would leave it at its handler's first instruction (R376, R410). -/
def Strand.asForced (x : Strand) (clock : Nat) : Strand :=
  if x.run = .free ∨ x.pl then x else { x.trapped (preemptTrap x true) with reqAt := some (clock, true, false) }

/-- The record of strand k at address base, with the handler's region and the fabric regions (R379, R381, R410). -/
def State.strandRecord (s : State) (k base : Nat) : List (Nat × List Byte) :=
  let s := s.setStrand k ((s.strand k).asForced s.clock)
  s.recordRegions k base true 0 ++
  [(base + 0x40, (List.range 32).flatMap fun r => leBytes 8 ((s.strand k).readG (BitVec.ofNat 5 r)).toNat)] ++
  (if (s.ownsActive k).isSome || (s.ownsShadow k).isSome then s.fabricRegions (tileOf k) k base else [])

/-- The fabric state of tile t at address base, whoever owns its loads and its bindings (R381, R410). -/
def State.tileRecord (s : State) (t base : Nat) : List (Nat × List Byte) :=
  let y := s.tile t
  if y.active.isNone && y.shadow.isNone && y.ports.all (fun x => x.st == .unbound) then []
  else
    let k := 4 * t
    let own (l : Load) : Load := { l with owner := k }
    (s.setTile t { y with active := y.active.map own, shadow := y.shadow.map own,
                          ports := y.ports.map fun x => { x with strand := k } }).fabricRegions t k base

/-- A host part as a number. -/
def halfCode : Half → Nat
  | .n => 0 | .s => 1 | .e => 2

/-- A module part as a number. -/
def modCode : ModPart → Nat
  | .i => 0 | .s => 1 | .o => 2

/-- A cache as a number. -/
def cacheCode : Cache → Nat
  | .l1d t => t
  | .l1i t => 640 + t
  | .l2 d => 1280 + d

/-- A directory line state as numbers: the line, its module part, the host parts, the covered flag, and the sharer record (R390). -/
def State.lineNumbers (s : State) (l : Nat) (d : DirLine) : List Nat :=
  let record := match d.sharers with
    | .exact r => 0 :: r.map cacheCode
    | .dies v => [1, v.toNat]
  [l, modCode d.mod, halfCode d.lo, halfCode d.hi, if s.covered l then 1 else 0] ++ record

/-- Section 2: the directory line states and the reservation tables, in a layout that the manual leaves open. -/
def State.directoryBytes (s : State) : List Byte :=
  let loads := s.strands.filterMap fun e => e.2.resv.map fun r => [e.1, r.addr.toNat, (if r.dbl then 1 else 0), r.pa, r.since]
  let ranges := s.mdies.toList.flatMap fun m => m.ranges.map fun e => e.1 :: (List.range 4).map fun w => (e.2.word w).toNat
  Config.dumpDirectory (s.dir.map fun e => s.lineNumbers e.1 e.2) (loads ++ ranges)

/-- The regions and the length of each section at an offset of the dump region, in the order of their types (R410). -/
def State.dumpSection (s : State) (k off : Nat) : List (Nat × List Byte) × Nat :=
  let base := dumpBase + off
  match k with
  | 0 => ((List.range 2560).flatMap fun i => s.strandRecord i (base + 0x9_0000 * i), 2560 * 0x9_0000)
  | 1 => ([(base, s.directoryBytes)], s.directoryBytes.length)
  | 2 =>
    let q (d : Nat) : List Byte :=
      ((s.die d).queue.flatMap fun r => wordBytes ((List.range 12).map fun w => (r.word w).toNat)) ++
      Config.dumpResume ((s.die d).resumeq.map fun r => [r.level.toNat, r.suspt, r.stamp] ++ r.ctxs.map (·.record))
    let bs := (List.range 4).flatMap q
    ([(base, bs)], bs.length)
  | 3 => ((List.range 640).flatMap fun t => s.tileRecord t (base + 0x3_E000 * t - 0x5_2000), 640 * 0x3_E000)
  | _ =>
    let bs := (List.range 4).flatMap fun d => (s.mdie d).counters.toList.flatMap fun c => leBytes 8 c.toNat
    ([(base, bs)], bs.length)

/-- The sections from number k on written one after another, n of them, each with its entry. -/
def State.dumpSections : Nat → Nat → Nat → State → State
  | 0, _, _, s => s
  | n + 1, k, off, s =>
    let off := off + (Config.dumpGap k).toNat
    let r := s.dumpSection k off
    let s' := r.1.foldl (fun s x => s.dumpWrite (x.1 - dumpBase) x.2) s
    State.dumpSections n (k + 1) (off + r.2)
      (s'.dumpWrite (64 + 32 * k) (wordBytes [(k + 1) <<< 56, off, r.2, 0]))

/-- The dump completed: the sections, then VALID = 1 (R410). -/
def State.finishDump (s : State) : State :=
  let s := s.ownDump.dumpSections 5 0 224
  { s.setDumpBit 63 1 with cogor := { s.cogor with dumping := none } }

/-! ## Fatal errors -/

/-- A module fatal error (R409, R410). While one is being dumped a further one is noted in CAUSE2; a module that an alarm or
a failed boot has halted takes none (R411). -/
def State.fatalError (s : State) (cause unit : Nat) : State :=
  let c := s.cogor
  if c.stage = 7 ∧ !c.fatal then s
  else if c.dumping.isSome then s.ownDump.dumpWrite 14 (leBytes 1 cause)
  else
    let s := { s.ownDump with cogor := { c with stage := 7, fatal := true } }
    if s.dumpValid then s.setDumpBit 62 1
    else { s.dumpWrite 0 (s.dumpHeader cause unit) with cogor := { s.cogor with dumping := some s.clock } }

/-- FATAL_ERROR (R409, R410): cause 1 to 5 at unit 0 to 7. Of an uncorrectable error in a directory, a table or a dispatcher the
unit's memory-side die keeps count (R412, R416). -/
def execFatalError (cause unit : Nat) (s : State) : Host.Outcome State Fault Refusal :=
  if cause = 0 ∨ 5 < cause ∨ 8 ≤ unit ∨ (s.cogor.stage = 7 ∧ !s.cogor.fatal) then .next s
  else .next ((if cause = 1 ∨ cause = 2 ∨ cause = 4 then s.count (unit % 4) .uecc else s).fatalError cause unit)

/-- WATCHDOG_EXPIRE: Cogor's 10 ms watchdog on a die (R409). -/
def execWatchdogExpire (die : Nat) (s : State) : Host.Outcome State Fault Refusal :=
  if die < 8 then .next (s.fatalError 5 die) else .next s

end Sys2Proof.Machine
end

