-- ==== Sys2Proof/Machine/Boot.lean ====
section
/-!
DEFINITION. Boot (R400, R401), firmware images (R402, R403), the security alarm (R408), retirement (R417) and partitions
(R418).
-/

namespace Sys2Proof.Machine

/-- The state with Cogor changed by f. -/
def State.mapCogor (s : State) (f : Cogor → Cogor) : State := { s with cogor := f s.cogor }

/-! ## Reset (R8, R400, R404) -/

/-- The layout in a value of PARTCFG, without its reserved bits [63:48], which read as zero (R9, R418). -/
def layoutOf (v : Word) : Word := v &&& 0x0000_FFFF_FFFF_FFFF

/-- Cogor after a reset: what the boot flash, the fuses and the replay-protected counters hold is kept, and the latched
alarms unless the reset is a cold one. -/
def Cogor.afterReset (c : Cogor) (cold : Bool) : Cogor :=
  { c with stage := 1, err := 0, slotB := false, alarms := if cold then 0 else c.alarms, bringup := 0xF, running := [],
           partcfg := c.partNext,
           rstate := 0, rtile := 0, draining := none, retmap := c.flashRetmap, domid := none,
           certified := false, spdm := .idle, fatal := false, dumping := none, activating := none }

/-- The module after a reset, at the start of stage 1: memory is as it was until stage 4 (R400, R420). -/
def State.afterReset (s : State) (cold : Bool) : State :=
  { State.reset with
    mdies := Vector.replicate 4 { MDie.reset with window := s.clock / 10_000 },
    cur := s.cur, plan := s.plan, tick := s.tick, clock := s.clock, nextId := s.nextId, mem := s.mem, poison := s.poison,
    cogor := s.cogor.afterReset cold }

/-- COLD_RESET (R400). -/
def execColdReset (s : State) : Host.Outcome State Fault Refusal := .next (s.afterReset true)

/-- A write to RESET of the mailbox: 0b01 requests a module reset, other values are ignored, and an alarm halt stays
(R404). -/
def State.resetWrite (s : State) (bits : Nat) : State :=
  if bits = 1 ∧ !(s.cogor.stage == 7 && s.cogor.err == 5) then s.afterReset false else s

/-- RESET (R404). -/
def execModuleReset (bits : BitVec 2) (s : State) : Host.Outcome State Fault Refusal := .next (s.resetWrite bits.toNat)

/-! ## Images (R402) -/

/-- The security version of an image. -/
def imageSvn (img : List Byte) : Nat := field (imageWord img 1) 32 32

/-- The body length of an image. -/
def imageBody (img : List Byte) : Nat := field (imageWord img 1) 0 32

/-- Every field of the header lies within its limits, every reserved one is zero, and what the header names lies in the
image. -/
def headerOk (img : List Byte) : Bool :=
  imageWord img 0 == 0x0000_0001_5746_4743 &&
  decide (imageSvn img ≤ 64) && decide (1 ≤ imageBody img) && decide (imageBody img ≤ 0x100_0000) &&
  ([4, 5, 6, 7].all fun w => imageWord img w == 0) &&
  decide (64 + imageBody img ≤ img.length) && decide (field (imageWord img 2) 32 32 + 96 ≤ img.length) &&
  decide (field (imageWord img 2) 0 32 < img.length)

/-- The signed bytes: header words 0 to 4 and the body. -/
def signedBytes (img : List Byte) : List Byte := img.take 40 ++ (img.drop 64).take (imageBody img)

/-- The verification of an image: 0 accepted, 1 signature, 2 rollback (R402; log 34). -/
def verifyCode (img : List Byte) (svnf : Nat) : BitVec 8 :=
  let ecdsa := (img.drop (field (imageWord img 2) 32 32)).take 96
  let lms := img.drop (field (imageWord img 2) 0 32)
  if !headerOk img then 1
  else if !(Config.ecdsaVerifies Config.otpEcdsaRoot (signedBytes img) ecdsa &&
            Config.lmsVerifies Config.otpLmsRoot (signedBytes img) lms) then 1
  else if imageSvn img < svnf then 2
  else 0

/-! ## Boot stages (R400, R401) -/

/-- The module halted with an error (R400). -/
def State.halt (s : State) (err : BitVec 8) : State := s.mapCogor fun c => { c with stage := 7, err := err }

/-- A leaf counter's write to the boot flash, and whether it succeeds (R406). -/
def State.flashWrite (s : State) : Bool × State := (!Config.flashFails s.tick, { s with tick := s.tick + 1 })

/-- A new alias LMS tree, not yet certified (R406). -/
def Cogor.newTree (c : Cogor) : Cogor := { c with aliasTree := c.aliasTree + 1, aliasLeaf := 0, certified := false }

/-- The alias LMS tree certified with the next leaf of the DeviceID LMS key, whose 2²⁰ leaves serve once each: the counter advances
first, and nothing is signed when that write fails (R406; log 37). -/
def State.certify (s : State) : Bool × State :=
  if s.cogor.certified then (true, s)
  else if 2 ^ 20 ≤ s.cogor.deviceLeaf then (false, s)
  else match s.flashWrite with
    | (true, s) => (true, s.mapCogor fun c => { c with certified := true, deviceLeaf := c.deviceLeaf + 1 })
    | (false, s) => (false, s)

/-- An image starts to run: its alias keys are derived, and its alias LMS tree is certified, unless the key store is erased
(R402, R406). -/
def State.runImage (s : State) (img : List Byte) (slotB : Bool) : State :=
  let s := s.mapCogor fun c => { c with stage := 3, running := img, slotB := slotB }
  if s.cogor.erased then s else (s.mapCogor Cogor.newTree).certify.2

/-- Stage 2: slot A, and slot B if it fails; when both fail, ERR is that of slot B (R400; log 34). -/
def State.verifySlots (s : State) : State :=
  let c := s.cogor
  if verifyCode c.slotA c.svnf = 0 then s.runImage c.slotA false
  else if verifyCode c.slotBImg c.svnf = 0 then s.runImage c.slotBImg true
  else s.halt (verifyCode c.slotBImg c.svnf)

/-- Stage 4: zeros with fresh ECC in all memory of the module, but for a dump region whose header is VALID (R400, R420). -/
def State.zeroMemory (s : State) : State :=
  let keep (a : Nat) : Bool :=
    (decide (0x4_0000_0000_0000 ≤ a) && decide (a < 0x10_0000_0000_0000)) || (s.dumpValid && decide (dumpBase ≤ a) && decide (a < 0xC0_0000_0000))
  { s with mem := s.mem.filter fun c => keep c.1, poison := s.poison.filter fun h => keep (64 * h) }

/-- BOOT_STAGE_DONE: stage 1 to 4 ends; ok says whether its parity check, training or scrub succeeded (R400). -/
def execBootStageDone (ok : Bool) (s : State) : Host.Outcome State Fault Refusal :=
  .next (match s.cogor.stage.toNat with
    | 1 => if ok then s.mapCogor fun c => { c with stage := 2 } else s.halt 4
    | 2 => s.verifySlots
    | 3 => if ok then s.mapCogor fun c => { c with stage := 4 } else s.halt 3
    | 4 => if ok then s.zeroMemory.mapCogor fun c => { c with stage := 5 } else s.halt 3
    | _ => s)

/-- A write to RELEASE (R401, R404). -/
def State.releaseWrite (s : State) (bits : Word) : State :=
  if bits.getLsbD 0 ∧ s.cogor.stage = 5 then s.mapCogor fun c => { c with stage := 6, bringup := 0 } else s

/-- RELEASE (R401). -/
def execReleaseDies (bits : Word) (s : State) : Host.Outcome State Fault Refusal := .next (s.releaseWrite bits)

/-- Whether an alarm has halted the module: no write is performed any more (R408). -/
def State.alarmed (s : State) : Bool := s.cogor.stage == 7 && s.cogor.err == 5

/-- The back-invalidates that a write to DUMPCLR needs before it is performed: the host may hold the half of the header (R391, R409). -/
def State.dumpclrSnoops (s : State) (bits : Word) : List (Nat × Bool) :=
  if bits.getLsbD 0 && !s.alarmed then s.snoopsFor dumpBase true else []

/-- A write to DUMPCLR clears VALID and frees the region (R404, R408, R409); while the host holds the header's half it only asks for it
back (log 81). -/
def State.dumpclrWrite (s : State) (bits : Word) : State :=
  match s.dumpclrSnoops bits with
  | [] => if bits.getLsbD 0 && !s.alarmed then s.setDumpBit 63 0 else s
  | l => s.sendSnoops l

/-- DUMPCLR (R409). -/
def execDumpclr (bits : Word) (s : State) : Host.Outcome State Fault Refusal := .next (s.dumpclrWrite bits)

/-- A write to SVNCOMMIT: the fuses advance to the running image's security version (R403). -/
def State.svncommitWrite (s : State) (bits : Word) : State :=
  if bits.getLsbD 0 ∧ s.cogor.stage = 6 then s.mapCogor fun c => { c with svnf := max c.svnf (imageSvn c.running) } else s

/-- SVNCOMMIT (R403). -/
def execSvncommit (bits : Word) (s : State) : Host.Outcome State Fault Refusal := .next (s.svncommitWrite bits)

/-! ## The security alarm (R408) -/

/-- An alarm from a sensor: every die stops, the session is gone, the key store may be erased, and the module halts with ERR 5. A
dump that is being written is not completed (R408, R411). -/
def State.alarm (s : State) (sensor : BitVec 2) : State :=
  s.mapCogor fun c =>
    { c with stage := 7, err := 5, alarms := c.alarms ||| (1 <<< sensor.toNat), spdm := .idle, fatal := false,
             dumping := none, activating := none, erased := c.erased || Config.otpEraseMask.getLsbD sensor.toNat }

/-- SECURITY_ALARM (R408). -/
def execSecurityAlarm (sensor : BitVec 2) (s : State) : Host.Outcome State Fault Refusal := .next (s.alarm sensor)

/-! ## Retiring a tile (R417) -/

/-- Whether a resume entry of a gang, which it has once its last member has suspended, names a cask (R382). -/
def State.gangSuspendedAt (s : State) (c : Nat) : Bool :=
  (List.range 4).any fun d => (s.wholeEnts d).any fun r => r.ctxs.any fun x => match x.gang with
    | some g => g.cask == c
    | none => false

/-- A write to RETIRE: ignored with reserved bits set, refused, or the tile drains (R417; log 35). -/
def State.retireWrite (s : State) (bits : Word) : State :=
  let t := field bits 0 10
  if field bits 10 54 ≠ 0 then s
  else
    let s := s.mapCogor fun c => { c with rtile := BitVec.ofNat 10 t }
    if s.cogor.draining.isSome || s.tileOut t || decide (640 ≤ t) || s.gangSuspendedAt (caskOf t) then
      s.mapCogor fun c => { c with rstate := 3 }
    else
      let s := s.mapCogor fun c => { c with rstate := 1, draining := some t }
      (List.range 4).foldl (fun s i => if (s.strand (4 * t + i)).run = .free then s else s.raisePreempt (4 * t + i)) s

/-- RETIRE (R417). -/
def execRetireTile (bits : Word) (s : State) : Host.Outcome State Fault Refusal := .next (s.retireWrite bits)

/-- RETIRE_DONE: the four strands of the draining tile are Free; it is retired, for this boot and in the flash (R417). -/
def execRetireDone (s : State) : Host.Outcome State Fault Refusal :=
  match s.cogor.draining with
  | some t =>
    if s.occupied t = 0 then
      .next (s.mapCogor fun c =>
        { c with rstate := 2, draining := none, retmap := c.retmap ||| (1 <<< t), flashRetmap := c.flashRetmap ||| (1 <<< t) })
    else .next s
  | none => .next s

/-! ## Partitions (R418) -/

/-- A partition layout that PARTCFG takes: the dies' numbers run from 0 without a gap, and every other number is one of
them. -/
def partitionOk (v : Word) : Bool :=
  let dies := (List.range 4).map fun k => field v (2 * k) 2
  dies.all (fun p => (List.range p).all fun q => dies.contains q) &&
  (List.range 8).all (fun c => dies.contains (field v (8 + 2 * c) 2)) &&
  (List.range 12).all (fun u => dies.contains (field v (24 + 2 * u) 2))

/-- A write to PARTCFG, which takes effect at the next reset (R418). -/
def State.partcfgWrite (s : State) (bits : Word) : State :=
  if partitionOk bits then s.mapCogor fun c => { c with partNext := layoutOf bits } else s

/-- PARTCFG (R418). -/
def execPartcfg (bits : Word) (s : State) : Host.Outcome State Fault Refusal := .next (s.partcfgWrite bits)

end Sys2Proof.Machine
end

