-- ==== Sys2Proof/Machine/Branch.lean ====
section
/-!
DEFINITION. Branches and jumps, majors 0x0F to 0x17: R130 to R133.
-/

namespace Sys2Proof.Machine

/-- A conditional branch: PC + 4 × SignExtend(off, 16) when taken, PC + 4 otherwise; no register is written (R130). -/
def State.branch (s : State) (taken : Bool) (off : BitVec 16) : Host.Outcome State Fault Refusal :=
  .next (if taken then s.retireTo (s.me.pc + branchDist off) else s.retire)

/-- BEQ: taken when g_a = g_b (R130). -/
def execBeq (a b : Reg) (off : BitVec 16) (s : State) : Host.Outcome State Fault Refusal :=
  s.branch (s.readG a == s.readG b) off

/-- BNE: taken when g_a ≠ g_b (R130). -/
def execBne (a b : Reg) (off : BitVec 16) (s : State) : Host.Outcome State Fault Refusal :=
  s.branch (s.readG a != s.readG b) off

/-- BLT: taken when g_a < g_b as signed (R130). -/
def execBlt (a b : Reg) (off : BitVec 16) (s : State) : Host.Outcome State Fault Refusal :=
  s.branch ((s.readG a).slt (s.readG b)) off

/-- BGE: taken when g_a ≥ g_b as signed (R130). -/
def execBge (a b : Reg) (off : BitVec 16) (s : State) : Host.Outcome State Fault Refusal :=
  s.branch (!(s.readG a).slt (s.readG b)) off

/-- BLTU: taken when g_a < g_b as unsigned (R130). -/
def execBltu (a b : Reg) (off : BitVec 16) (s : State) : Host.Outcome State Fault Refusal :=
  s.branch ((s.readG a).ult (s.readG b)) off

/-- BGEU: taken when g_a ≥ g_b as unsigned (R130). -/
def execBgeu (a b : Reg) (off : BitVec 16) (s : State) : Host.Outcome State Fault Refusal :=
  s.branch (!(s.readG a).ult (s.readG b)) off

/-- J: PC := PC + 4 × SignExtend(off, 26) (R131). -/
def execJ (off : BitVec 26) (s : State) : Host.Outcome State Fault Refusal :=
  .next (s.retireTo (s.me.pc + branchDist off))

/-- JAL: g31 := PC + 4, then as J (R131). -/
def execJal (off : BitVec 26) (s : State) : Host.Outcome State Fault Refusal :=
  .next ((s.writeG 31 (s.me.pc + 4)).retireTo (s.me.pc + branchDist off))

/-- JALR: to g_a + simm, which must be a multiple of 4 or the instruction takes Misaligned Access with the target in TREC
and g_d unchanged; g_d := PC + 4 (R132). -/
def execJalr (d a : Reg) (imm : BitVec 16) (s : State) : Host.Outcome State Fault Refusal :=
  let t := s.readG a + simm imm
  if field t 0 2 ≠ 0 then .next (s.enterTrap (Trap.sync 0x03 t))
  else .next ((s.writeG d (s.me.pc + 4)).retireTo t)

end Sys2Proof.Machine
end

