-- ==== Sys2Proof/Machine/Engine.lean ====
section
/-!
DEFINITION. Engine commands, major 0x35: R212 to R219, with the pool structures of R64 to R67 and the pooling order of
R91; and the accesses of a command one by one (log 18).
-/

namespace Sys2Proof.Machine

/-! ## The engine's accesses (R214, R216) -/

/-- The context of a command's accesses: its issuing tile, and the translation of the strand at issue (R275, R362). -/
def EngCmd.ctx (c : EngCmd) : Ctx :=
  { tile := tileOf c.strand, root := c.root, asid := c.asid, sup := c.sup, party := none, bind := c.id, who := .command c.id }

/-- A stop of the engine: CAUSE, REASON, and the address field (R213, R214). -/
def engStop (cause : BitVec 8) (reason : Nat) (a : Word) : Trap :=
  { Trap.sync cause a with row := BitVec.ofNat 6 reason }

/-- A Format Error of the engine's own (R216, R218, R219). -/
def badFormat : Trap := engStop 0x1A 0 0

/-- The state with a command changed by f. -/
def State.mapCmd (s : State) (id : Nat) (f : EngCmd → EngCmd) : State :=
  match s.cmds.get? id with
  | some c => { s with cmds := s.cmds.put id (f c) }
  | none => s

/-- The state with the accesses of the command of a context changed by f. -/
def State.mapRun (s : State) (c : Ctx) (f : EngRun → EngRun) : State := s.mapCmd c.bind fun x => { x with run := f x.run }

/-- The accesses of the command of a context. -/
def State.runOf (s : State) (c : Ctx) : Option EngRun := (s.cmds.get? c.bind).map (·.run)

/-- Whether a step makes only one read of a command. -/
def State.onlyReads (s : State) (c : Ctx) : Bool := (s.runOf c).any fun r => r.budget.isSome

/-- The check of an engine's access. The write reservation that a write takes waits for any earlier reservation,
whatever its policy, and asks for no split (R214). A step that makes only one read goes no further than the check of a write. -/
def State.engCheck (s : State) (c : Ctx) (va : Word) (kind : AccKind) (how : How := .plain) : Res Grant :=
  if kind = .store ∧ s.onlyReads c then .wait s else
  match s.check c va kind how with
  | .trap t s' => if kind = .store ∧ t.cause = 0x0B then .wait s' else .trap t s'
  | .wait s' => .wait (if kind = .store then { s' with queries := s.queries, asked := s.asked } else s')
  | .ok g s' => .ok g (if g.leaves c.tile then s'.mapRun c fun r => { r with far := true } else s')

/-- A read of n bytes within one aligned 8, as memory now is; a command's atomics read so (R67). -/
def State.engReadNow (s : State) (c : Ctx) (va : Word) (n : Nat) : Res Nat :=
  (s.engCheck c va .load).bind fun g s =>
    if s.isPoisoned g.key n then .trap (Trap.sync 0x18 va) (s.usePoison c.tile g.key)
    else .ok (s.load g.key n) (s.recordAccess c g false)

/-- A read that may have been made ahead (R286): its recorded value; otherwise a new read, which get makes in its own name (R394), and
which is recorded where reads are made ahead or come once. Where one read of a unit is made ahead, those before it are passed over with value 0, and
the next one waits. -/
def State.replay (s : State) (c : Ctx) (va : Word) (n : Nat) (get : Ctx → State → Res Nat) : Res Nat :=
  match s.runOf c with
  | none => get c s
  | some r =>
    let here (x : EngRead) : Bool := x.unit == r.unit && x.pos == r.pos
    match r.seen.find? fun x => here x && x.va == va && x.n == n with
    | some x => .ok x.val (s.mapRun c fun r => { r with pos := r.pos + 1 })
    | none =>
      if r.made then .wait s
      else match if r.unit = 0 then r.budget.map fun _ => 0 else r.budget with
      | some (k + 1) => .ok 0 (s.mapRun c fun r => { r with pos := r.pos + 1, budget := some k })
      | b => (get { c with who := .engRead c.bind r.unit r.pos } s).bind fun x s => .ok x (s.mapRun c fun r =>
          { r with pos := r.pos + 1, made := b.isSome, seen := if r.begun && b.isNone then r.seen
              else r.seen.filter (fun y => !here y) ++ [{ unit := r.unit, pos := r.pos, va := va, n := n, val := x }] })

/-- A read of n bytes, aligned to n (n is 1, 2, 4 or 8); one that is not stops the command with CAUSE 0x03 and its address (R218 gives
the data of a level no outcome; log 103). -/
def State.engRead (s : State) (c : Ctx) (va : Word) (n : Nat) : Res Nat :=
  if va.toNat % n ≠ 0 then .trap (Trap.sync 0x03 va) s else s.replay c va n fun c s => s.engReadNow c va n

/-- The same, always as memory now is. -/
def State.engReadAtomic (s : State) (c : Ctx) (va : Word) (n : Nat) : Res Nat :=
  if (s.runOf c).any (·.made) then .wait s
  else if va.toNat % n ≠ 0 then .trap (Trap.sync 0x03 va) s else s.engReadNow c va n

/-- A write of bytes within one line, which counts as one write for watch entries (log 105), or an atomic at the home; where it was
stored. A step that makes only one read passes over the writes before it. -/
def State.engWriteBytes (s : State) (c : Ctx) (va : Word) (bs : List Byte) (how : How := .plain) : Res (Nat × Nat) :=
  if s.onlyReads c && !(s.runOf c).any (·.made) then .ok (0, 0) s else
  (s.engCheck c va .store how).bind fun g s =>
    let s := s.mapRun c fun r =>
      { r with wrote := if g.place.coherent then r.wrote ++ [lineOf g.key] else r.wrote }
    let s := s.commit c g
    let s := if how = .plain then s.recordAccess c g true else s.atomicAt g true
    .ok (g.key, bs.length) (s.store (some c.who) g.key bs)

/-- A write of an n-byte value, aligned to n. -/
def State.engWrite (s : State) (c : Ctx) (va : Word) (n x : Nat) : Res (Nat × Nat) :=
  if va.toNat % n ≠ 0 then .trap (Trap.sync 0x03 va) s else s.engWriteBytes c va (leBytes n x)

/-- The same as an atomic at the home directory (R67, R396). -/
def State.engAtomic (s : State) (c : Ctx) (va : Word) (n x : Nat) : Res Unit :=
  (s.engWriteBytes c va (leBytes n x) .atomic).bind fun _ s => .ok () s

/-- n bytes at va, which need not be aligned, as one number, read in pieces that stay within one aligned 8 bytes. fuel bounds the
number of pieces. -/
def State.engReadAny (s : State) (c : Ctx) : Nat → Word → Nat → Res Nat
  | 0, _, _ => .ok 0 s
  | fuel + 1, va, n =>
    if n = 0 then .ok 0 s else
    let m := min n (8 - va.toNat % 8)
    (s.replay c va m fun c s => s.engReadNow c va m).bind fun x s =>
      (s.engReadAny c fuel (va + BitVec.ofNat 64 m) (n - m)).bind fun y s => .ok (x + y * 256 ^ m) s

/-- m bytes copied, within one aligned 8 bytes of source and of destination. -/
def State.engChunk (s : State) (c : Ctx) (src dst : Word) (m : Nat) : Res (Nat × Nat) :=
  (s.engReadAny c 1 src m).bind fun x s => s.engWriteBytes c dst (leBytes m x)

/-- n bytes copied in ascending order, in chunks that stay within one aligned 8 bytes on both sides (log 19); the spans
that were written. fuel bounds the number of chunks. -/
def State.engCopy (c : Ctx) : Nat → Word → Word → Nat → List (Nat × Nat) → State → Res (List (Nat × Nat))
  | 0, _, _, _, spans, s => .ok spans s
  | fuel + 1, src, dst, n, spans, s =>
    if n = 0 then .ok spans s else
    let m := min n (min (8 - src.toNat % 8) (8 - dst.toNat % 8))
    (s.engChunk c src dst m).bind fun x s =>
      State.engCopy c fuel (src + BitVec.ofNat 64 m) (dst + BitVec.ofNat 64 m) (n - m) (spans ++ [x]) s

/-- One unit of n bytes copied: poison of a half that the unit covers whole is cleared (R388). -/
def State.engCopyUnit (s : State) (c : Ctx) (src dst : Word) (n : Nat) : Res Unit :=
  (State.engCopy c n src dst n [] s).bind fun spans s => .ok () (s.unpoison spans)

/-- n units of z bytes copied. -/
def State.engCopyUnits (c : Ctx) (z : Nat) : Nat → Word → Word → State → Res Unit
  | 0, _, _, s => .ok () s
  | n + 1, src, dst, s =>
    (s.engCopyUnit c src dst z).bind fun _ s =>
      State.engCopyUnits c z n (src + BitVec.ofNat 64 z) (dst + BitVec.ofNat 64 z) s

/-- Values of n bytes each written at their addresses; the spans that were written. -/
def State.engWriteList (c : Ctx) (n : Nat) : List (Word × Nat) → List (Nat × Nat) → State → Res (List (Nat × Nat))
  | [], spans, s => .ok spans s
  | (a, x) :: r, spans, s =>
    (s.engWrite c a n x).bind fun y s => State.engWriteList c n r (spans ++ [y]) s

/-- One unit of values of n bytes each written: poison of a half that the unit covers whole is cleared (R388). -/
def State.engWriteUnit (c : Ctx) (n : Nat) (l : List (Word × Nat)) (s : State) : Res Unit :=
  (State.engWriteList c n l [] s).bind fun spans s => .ok () (s.unpoison spans)

/-! ## Progress -/

/-- The state with a command's progress replaced, at the end of a unit: its reads are behind it. -/
def State.setProgress (s : State) (id : Nat) (done aux : Nat) : State :=
  s.mapCmd id fun c =>
    { c with done := done, aux := aux, early := c.early.filter fun x => decide (done ≤ x.1),
             run := { c.run with seen := c.run.seen.filter fun x => x.unit == 0 || decide (done < x.unit) } }

/-- Units of a command until it has done limit of them. Each unit brings DONE forward, as does one that is done already; fuel bounds
their number. -/
def engLoop (id limit : Nat) (unit : EngCmd → State → Res Unit) : Nat → State → Res Unit
  | 0, s => .ok () s
  | fuel + 1, s =>
    match s.cmds.get? id with
    | some c =>
      if limit ≤ c.done then .ok () s
      else match c.early.find? fun x => x.1 == c.done with
        | some x => engLoop id limit unit fuel (s.setProgress id (c.done + x.2) c.aux)
        | none => (unit c (s.mapRun c.ctx fun r => { r with unit := c.done + 1, pos := 0 })).bind fun _ s =>
          engLoop id limit unit fuel s
    | none => .ok () s

/-- The units of a command once what comes before them has passed: the reads made so far are made once for all of them. -/
def engUnits (id limit fuel : Nat) (unit : EngCmd → State → Res Unit) (s : State) : Res Unit :=
  engLoop id limit unit fuel (s.mapCmd id fun c => { c with begun := true, run := { c.run with begun := true } })

/-! ## CPY (R215) -/

/-- LEN of a CPY. -/
def cpyLen (w : Vector Word 8) : Nat := field w[2] 0 40

/-- Whether a CPY runs downwards: DEST above SOURCE, and the ranges overlap. -/
def cpyDown (w : Vector Word 8) : Bool := w[0].ult w[1] && decide (w[1].toNat < w[0].toNat + cpyLen w)

/-- m bytes of value x of a CPY written at offset o of DEST, which count as done; none when m is 0. -/
def cpyPut (id : Nat) (c : EngCmd) (o m x done : Nat) (s : State) : Res Unit :=
  if m = 0 then .ok () s
  else (s.engWriteBytes c.ctx (c.words[1] + BitVec.ofNat 64 o) (leBytes m x)).bind fun _ s =>
    .ok () (s.setProgress id done c.aux)

/-- The next bytes of a CPY, at most up to limit: those of one aligned 8 bytes of the source, read at once, and written in pieces that
stay within an aligned 8 bytes of DEST (R215; log 19). -/
def cpyUnit (id limit : Nat) (c : EngCmd) (s : State) : Res Unit :=
  let src := c.words[0].toNat
  let dst := c.words[1].toNat
  let hi := cpyLen c.words - c.done
  let down := cpyDown c.words
  let m := min (limit - c.done) (if down then (src + hi - 1) % 8 + 1 else 8 - (src + c.done) % 8)
  let o := if down then hi - m else c.done
  (s.engReadAny c.ctx 1 (c.words[0] + BitVec.ofNat 64 o) m).bind fun x s =>
    if down then
      let k := min m ((dst + hi - 1) % 8 + 1)
      (cpyPut id c (hi - k) k (x / 256 ^ (m - k)) (c.done + k) s).bind fun _ s =>
        cpyPut id c o (m - k) x (c.done + m) s
    else
      let k := min m (8 - (dst + o) % 8)
      (cpyPut id c o k x (c.done + k) s).bind fun _ s => cpyPut id c (o + k) (m - k) (x / 256 ^ k) (c.done + m) s

/-! ## Key-value pools (R64 to R67, R216, R217) -/

/-- A pool as its header describes it. -/
structure Pool where
  store : Word
  entries : Word
  blockShift : Nat
  tokenShift : Nat
  blocks : Nat
deriving DecidableEq, Repr

/-- The pool header read and checked, with the alignments of R216; a reserved field that is not zero is a Format Error (R64; log
116). -/
def State.readPool (s : State) (c : EngCmd) : Res Pool :=
  let pool := c.words[0]
  (s.engReadAny c.ctx 9 pool 64).bind fun x s =>
    let h (k : Nat) : Word := BitVec.ofNat 64 (x >>> (64 * k))
    let bs := field (h 2) 40 8
    let ts := field (h 2) 32 8
    let ok := field (h 2) 48 16 == 0 && field (h 4) 32 32 == 0 && h 5 == 0 && h 6 == 0 && h 7 == 0 &&
      decide (12 ≤ bs) && decide (bs ≤ 21) && decide (4 ≤ ts) && decide (ts ≤ bs) &&
      (h 0).toNat % 2 ^ bs == 0 && (h 1).toNat % 8 == 0 &&
      pool.toNat % 64 == 0 && c.words[1].toNat % 8 == 0 && c.words[2].toNat % 2 ^ ts == 0
    if ok then .ok { store := h 0, entries := h 1, blockShift := bs, tokenShift := ts, blocks := field (h 2) 0 32 } s
    else .trap badFormat s

/-- The address of block b. -/
def Pool.block (p : Pool) (b : Nat) : Word := p.store + BitVec.ofNat 64 (b <<< p.blockShift)

/-- The address of block b's entry. -/
def Pool.entry (p : Pool) (b : Nat) : Word := p.entries + BitVec.ofNat 64 (8 * b)

/-- T of R66: the tokens of a block. -/
def Pool.perBlock (p : Pool) : Nat := 2 ^ (p.blockShift - p.tokenShift)

/-- The bytes of a token. -/
def Pool.tokenBytes (p : Pool) : Nat := 2 ^ p.tokenShift

/-- The address of entry i of a block table (R66). -/
def tableEntry (c : EngCmd) (i : Nat) : Word := c.words[1] + 8 + BitVec.ofNat 64 (4 * i)

/-- SHARE of a block that the table names; a number of NBLOCKS or more, or SHARE = 0, is a Format Error. -/
def State.readShare (s : State) (c : EngCmd) (p : Pool) (b : Nat) : Res Nat :=
  if p.blocks ≤ b then .trap badFormat s
  else (s.engReadAtomic c.ctx (p.entry b) 8).bind fun x s =>
    if x / 2 ^ 48 = 0 then .trap badFormat s else .ok (x / 2 ^ 48) s

/-- One token of KVGATHER. -/
def gatherUnit (id : Nat) (p : Pool) (cap : Nat) (c : EngCmd) (s : State) : Res Unit :=
  let t := field c.words[3] 32 32 + c.done
  let i := t / p.perBlock
  if cap ≤ i then .trap badFormat s
  else (s.engRead c.ctx (tableEntry c i) 4).bind fun b s =>
    (s.readShare c p b).bind fun _ s =>
      (s.engCopyUnit c.ctx (p.block b + BitVec.ofNat 64 ((t % p.perBlock) <<< p.tokenShift))
        (c.words[2] + BitVec.ofNat 64 (c.done <<< p.tokenShift)) p.tokenBytes).bind fun _ s =>
          .ok () (s.setProgress id (c.done + 1) c.aux)

/-- KVGATHER (R216): TOKENS is read once. -/
def State.kvGather (s : State) (id limit fuel : Nat) (c : EngCmd) : Res Unit :=
  (s.readPool c).bind fun p s =>
    (s.engRead c.ctx c.words[1] 8).bind fun w0 s =>
      if w0 % 2 ^ 32 < field c.words[3] 32 32 + field c.words[3] 0 32 then .trap badFormat s
      else engUnits id limit fuel (gatherUnit id p (w0 / 2 ^ 32)) s

/-- The value that means that PEND names no block. -/
def noPend : Nat := 0xFFFF_FFFF

/-- The failure of a write of a descriptor word (R214): such a stop leaves the descriptor as it is. -/
def Trap.ofDescriptor (t : Trap) : Trap := { t with stepped := true }

/-- A result whose trap, if it comes to one, is the failure of a descriptor word. -/
def Res.descriptor {α : Type} : Res α → Res α
  | .trap t s => .trap t.ofDescriptor s
  | r => r

/-- PEND or CARRY written into word 5 of the descriptor (R214, R217). -/
def State.writeAux (s : State) (c : EngCmd) (x : Nat) : Res Unit :=
  ((s.engWrite c.ctx (c.desc + 40) 8 x).bind fun _ s => .ok () s).descriptor

/-- Pop of R217: every word is checked before any is written, PEND's among them, so the pop is whole or is not made, and no block is
lost. The words are as memory now has them, and they change by atomics at the home: the step is one compare-and-swap that succeeds
(R67). A PEND that the descriptor brings is a block number like any other (R216). -/
def State.popBlock (s : State) (id : Nat) (c : EngCmd) (p : Pool) : Res Nat :=
  if c.aux ≠ noPend then (if p.blocks ≤ c.aux then .trap badFormat s else .ok c.aux s) else
  let w3 := c.words[0] + 24
  let w4 := c.words[0] + 32
  (s.engReadAtomic c.ctx w3 8).bind fun x s =>
    let head := x % 2 ^ 32
    if head = 0xFFFF_FFFF then .trap (engStop 0x0D 1 0) s
    else if p.blocks ≤ head then .trap badFormat s
    else
      (s.engReadAtomic c.ctx (p.entry head) 8).bind fun e s =>
      (s.engReadAtomic c.ctx w4 4).bind fun n s =>
      (s.engCheck c.ctx w3 .store .atomic).bind fun _ s =>
      (s.engCheck c.ctx (p.entry head) .store .atomic).bind fun _ s =>
      (s.engCheck c.ctx w4 .store .atomic).bind fun _ s =>
      (s.engCheck c.ctx (c.desc + 40) .store).descriptor.bind fun _ s =>
      (s.engAtomic c.ctx w3 8 (((x / 2 ^ 32 + 1) % 2 ^ 32) * 2 ^ 32 + e % 2 ^ 32)).bind fun _ s =>
      (s.engAtomic c.ctx (p.entry head) 8 (2 ^ 48 + (e / 2 ^ 32) % 2 ^ 16 * 2 ^ 32)).bind fun _ s =>
      (s.engAtomic c.ctx w4 4 ((n + 2 ^ 32 - 1) % 2 ^ 32)).bind fun _ s =>
      (s.writeAux c head).bind fun _ s => .ok head (s.mapCmd id fun c => { c with aux := head })

/-- The copy-on-write step of R217: the o tokens of block b copied into a popped block, then the entry written and
SHARE[b] lowered as one step; the popped block. -/
def State.copyOnWrite (s : State) (id : Nat) (c : EngCmd) (p : Pool) (i b o : Nat) : Res Nat :=
  (s.popBlock id c p).bind fun b2 s =>
    (State.engCopyUnits c.ctx p.tokenBytes o (p.block b) (p.block b2) s).bind fun _ s =>
    (s.engReadAtomic c.ctx (p.entry b) 8).bind fun e s =>
    (s.engCheck c.ctx (tableEntry c i) .store).bind fun _ s =>
    (s.engCheck c.ctx (p.entry b) .store .atomic).bind fun _ s =>
    (s.engWrite c.ctx (tableEntry c i) 4 b2).bind fun _ s =>
    (s.engAtomic c.ctx (p.entry b) 8 (e - 2 ^ 48)).bind fun _ s => .ok b2 s

/-- The block into which a run of KVAPPEND goes: a popped one at a block's start, otherwise the one that the table names,
or a copy of it while it is shared. -/
def State.appendBlock (s : State) (id : Nat) (c : EngCmd) (p : Pool) (i o : Nat) : Res Nat :=
  if o = 0 then
    (s.popBlock id c p).bind fun b s => (s.engWrite c.ctx (tableEntry c i) 4 b).bind fun _ s => .ok b s
  else
    (s.engRead c.ctx (tableEntry c i) 4).bind fun b s =>
      (s.readShare c p b).bind fun share s => if 1 < share then s.copyOnWrite id c p i b o else .ok b s

/-- One run of KVAPPEND (R217): the tokens that fit the block at the table's end. A run that would pass limit ends the
work (log 18). -/
def appendRun (id limit : Nat) (p : Pool) (c : EngCmd) (s : State) : Res Unit :=
  (s.engRead c.ctx c.words[1] 8).bind fun w0 s =>
    let t := w0 % 2 ^ 32
    let i := t / p.perBlock
    let o := t % p.perBlock
    let n := min (p.perBlock - o) (field c.words[3] 0 32 - c.done)
    if w0 / 2 ^ 32 ≤ i then .trap (engStop 0x0D 2 0) s
    else if limit < c.done + n then .ok () s
    else
      (s.appendBlock id c p i o).bind fun b s =>
      (State.engCopyUnits c.ctx p.tokenBytes n (c.words[2] + BitVec.ofNat 64 (c.done <<< p.tokenShift))
        (p.block b + BitVec.ofNat 64 (o <<< p.tokenShift)) s).bind fun _ s =>
      (s.engWrite c.ctx c.words[1] 4 ((t + n) % 2 ^ 32)).bind fun _ s =>
      ((s.setProgress id (c.done + n) noPend).writeAux c noPend)

/-- KVAPPEND (R217). -/
def State.kvAppend (s : State) (id limit fuel : Nat) (c : EngCmd) : Res Unit :=
  (s.readPool c).bind fun p s => engUnits id limit fuel (appendRun id limit p) s

/-! ## SFBAG (R91, R219) -/

/-- The format of an embedding element. -/
def bagFmt (w : Vector Word 8) : Fmt :=
  match field w[6] 40 8 with
  | 0 => fp32 | 1 => bf16 | 2 => fp16 | _ => e4m3

/-- DIM of a command. -/
def bagDim (w : Vector Word 8) : Nat := field w[6] 48 16

/-- The chip and the rank within it that hold a Cellar offset (R53). -/
def cellarRank (o : Nat) : Nat × Nat := (o / 2 ^ 39, (o / 128) % 8)

/-- The partial sums of one output position, by chip and rank. -/
abbrev Partials := List ((Nat × Nat) × Nat)

/-- p := RoundRNE32(p + w × x) in one rounding; from ABSENT, RoundRNE32(w × x) (R91). -/
def Partials.add (p : Partials) (r : Nat × Nat) (w x : FVal) : Partials :=
  match p.lookup r with
  | some q => p.map fun e => if e.1 = r then (r, (fp32.fmaV .rne w x (fp32.decode q)).1) else e
  | none => p ++ [(r, (fp32.round .rne (w.mul x).1).1)]

/-- The combined value of one output position: the ranks of each chip, then the chips, in the tree of R89; all ABSENT is
+0 (R91). -/
def Partials.total (p : Partials) : Nat :=
  let comb (a b : Nat) : Nat := (fp32.addF .rne a b).1
  let chip (c : Nat) : Option Nat := treeFold comb 3 ((List.range 8).map fun r => p.lookup (c, r))
  (treeFold comb 3 ((List.range 8).map chip)).getD 0

/-- The chip and rank and the code of one embedding element: within the Cellar range, or CAUSE 0x07. A read made ahead records both
as one number. -/
def State.readElement (s : State) (c : EngCmd) (a : Word) (n : Nat) : Res ((Nat × Nat) × Nat) :=
  (s.replay c.ctx a n fun k s =>
    (s.engCheck k a .load).bind fun g s =>
      match g.place with
      | .cellar o =>
        if s.isPoisoned g.key n then .trap (Trap.sync 0x18 a) (s.usePoison (tileOf c.strand) g.key)
        else .ok (o * 2 ^ 32 + s.load g.key n) (s.recordAccess k g false)
      | _ => .trap (engStop 0x07 0 a) s).bind fun x s => .ok (cellarRank (x / 2 ^ 32), x % 2 ^ 32) s

/-- The elements of one row added to the partial sums, position by position. -/
def addRow (c : EngCmd) (row : Word) (w : FVal) : List Nat → List Partials → State → Res (List Partials)
  | k :: ks, p :: ps, s =>
    let n := (bagFmt c.words).bits / 8
    (s.readElement c (row + BitVec.ofNat 64 (k * n)) n).bind fun x s =>
      (addRow c row w ks ps s).bind fun rest s => .ok (p.add x.1 w ((bagFmt c.words).decode x.2) :: rest) s
  | _, ps, s => .ok ps s

/-- The entries from lo on added to the partial sums, in ascending order. -/
def addEntries (c : EngCmd) : Nat → Nat → List Partials → State → Res (List Partials)
  | 0, _, ps, s => .ok ps s
  | n + 1, e, ps, s =>
    let dim := bagDim c.words
    let rowBytes := ceilDiv (dim * ((bagFmt c.words).bits / 8)) 128 * 128
    (s.engRead c.ctx (c.words[1] + BitVec.ofNat 64 (4 * e)) 4).bind fun r s =>
      if field c.words[5] 32 32 ≤ r then .trap badFormat s
      else
        (if c.words[3] = 0 then .ok 0x3F80_0000 s
         else s.engRead c.ctx (c.words[3] + BitVec.ofNat 64 (4 * e)) 4).bind fun w s =>
        (addRow c (c.words[0] + BitVec.ofNat 64 (r * rowBytes)) (fp32.decode w) (List.range dim) ps s).bind
          fun ps s => addEntries c n (e + 1) ps s

/-- One bag: its entries pooled, its output checked, then written whole. -/
def bagUnit (id : Nat) (c : EngCmd) (s : State) : Res Unit :=
  let dim := bagDim c.words
  (s.engRead c.ctx (c.words[2] + BitVec.ofNat 64 (4 * c.done)) 4).bind fun lo s =>
  (s.engRead c.ctx (c.words[2] + BitVec.ofNat 64 (4 * c.done + 4)) 4).bind fun hi s =>
    if hi < lo then .trap badFormat s
    else
      (addEntries c (hi - lo) lo (List.replicate dim []) s).bind fun ps s =>
        let out := (List.range dim).zip (ps.map Partials.total)
        let at_ (k : Nat) : Word := c.words[4] + BitVec.ofNat 64 (4 * (dim * c.done + k))
        (forEach out (fun x s => (s.engCheck c.ctx (at_ x.1) .store).bind fun _ s => .ok () s) s).bind fun _ s =>
        (State.engWriteUnit c.ctx 4 (out.map fun x => (at_ x.1, x.2)) s).bind fun _ s =>
          .ok () (s.setProgress id (c.done + 1) c.aux)

/-- SFBAG (R219): DIM and the alignments are checked before any row, and OFFS[0] is 0. -/
def State.sfBag (s : State) (id limit fuel : Nat) (c : EngCmd) : Res Unit :=
  let w := c.words
  if bagDim w = 0 ∨ 4096 < bagDim w ∨ w[0].toNat % 128 ≠ 0 ∨ w[1].toNat % 4 ≠ 0 ∨ w[2].toNat % 4 ≠ 0 ∨
      w[3].toNat % 4 ≠ 0 ∨ w[4].toNat % 4 ≠ 0 then .trap badFormat s
  else (s.engRead c.ctx w[2] 4).bind fun o s =>
    if o ≠ 0 then .trap badFormat s else engUnits id limit fuel (bagUnit id) s

end Sys2Proof.Machine
end

