-- ==== Sys2Proof/Machine/Convert.lean ====
section
/-!
DEFINITION. The format converter: tensor records (R68 to R70) and FCONV (R218).
-/

namespace Sys2Proof.Machine

/-! ## Tensor records (R68) -/

/-- One level descriptor. -/
structure Level where
  kind : Nat
  dim : Nat
  pos : Word
  crd : Word
  len : Word
deriving DecidableEq, Repr

/-- A record of two levels, as FCONV takes it. -/
structure Tensor where
  valid : Bool
  vtype : Nat
  values : Word
  nvals : Nat
  outer : Level
  inner : Level
deriving DecidableEq, Repr

/-- The bytes of a value of each type. -/
def valueBytes (vtype : Nat) : Nat := [8, 4, 2, 2, 1, 1, 4, 2, 1].getD vtype 1

/-- Whether a value's code is +0 or −0 of its type: types 0 to 5 are floating, 6 to 8 integers. -/
def isZero (vtype x : Nat) : Bool :=
  if vtype < 6 then x % 2 ^ (8 * valueBytes vtype - 1) == 0 else x == 0

/-- The n doublewords from a on, as an engine reads them. -/
def State.engWords (s : State) (c : Ctx) (a : Word) : Nat → Res (List Word)
  | 0 => .ok [] s
  | n + 1 => (s.engWords c a n).bind fun l s =>
      (s.engRead c (a + BitVec.ofNat 64 (8 * n)) 8).bind fun x s => .ok (l ++ [BitVec.ofNat 64 x]) s

/-- A level descriptor is well formed: kinds 0 to 4, no reserved field, no pointer that its kind does not use (R70). -/
def levelOk (w : List Word) : Bool :=
  let k := field (w.getD 0 0) 61 3
  field (w.getD 0 0) 32 29 == 0 && decide (0 < field (w.getD 0 0) 0 32) &&
  match k with
  | 0 => w.getD 1 0 == 0 && w.getD 2 0 == 0 && w.getD 3 0 == 0
  | 1 => w.getD 3 0 == 0
  | 2 => w.getD 2 0 == 0 && w.getD 3 0 == 0
  | 3 => w.getD 1 0 == 0 && w.getD 3 0 == 0
  | 4 => true
  | _ => false

/-- A level descriptor of four words. -/
def levelOf (w : List Word) : Level :=
  { kind := field (w.getD 0 0) 61 3, dim := field (w.getD 0 0) 0 32, pos := w.getD 1 0, crd := w.getD 2 0,
    len := w.getD 3 0 }

/-- The record at a, with its reserved fields and codes checked and two levels (R68, R70, R218). A record that is not aligned to 32
bytes stops the command with CAUSE 0x03 and its address (log 103). -/
def State.readTensor (s : State) (c : Ctx) (a : Word) : Res Tensor :=
  if a.toNat % 32 ≠ 0 then .trap (Trap.sync 0x03 a) s else
  (s.engWords c a 12).bind fun w s =>
    let h := w.getD 0 0
    let ok := field h 40 23 == 0 && decide (field h 32 8 < 9) && field h 24 8 == 0 && field h 16 8 == 2 &&
      field h 0 16 == 0 && field (w.getD 2 0) 32 32 == 0 && w.getD 3 0 == 0 &&
      levelOk ((w.drop 4).take 4) && levelOk ((w.drop 8).take 4)
    if ok then
      .ok { valid := h.getLsbD 63, vtype := field h 32 8, values := w.getD 1 0, nvals := field (w.getD 2 0) 0 32,
            outer := levelOf ((w.drop 4).take 4), inner := levelOf ((w.drop 8).take 4) } s
    else .trap badFormat s

/-! ## The children of a level (R69) -/

/-- Entries 0 to n - 1 of an array of 32-bit entries. -/
def State.engArray (s : State) (c : Ctx) (a : Word) : Nat → Res (List Nat)
  | 0 => .ok [] s
  | n + 1 => (s.engArray c a n).bind fun l s =>
      (s.engRead c (a + BitVec.ofNat 64 (4 * n)) 4).bind fun x s => .ok (l ++ [x]) s

/-- Whether a list never falls. -/
def rising : List Nat → Bool
  | x :: y :: r => decide (x ≤ y) && rising (y :: r)
  | _ => true

/-- Whether a list always rises. -/
def strictlyRising : List Nat → Bool
  | x :: y :: r => decide (x < y) && strictlyRising (y :: r)
  | _ => true

/-- Whether runs (first coordinate, length) follow one another without overlap, none of them empty, below dim. -/
def runsOk (dim : Nat) : List (Nat × Nat) → Bool
  | [] => true
  | [(c, n)] => decide (1 ≤ n) && decide (c + n ≤ dim)
  | (c, n) :: (c', n') :: r => decide (1 ≤ n) && decide (c + n ≤ c') && runsOk dim ((c', n') :: r)

/-- The children of every parent of a level: for each of the n parents, its (child position, coordinate) pairs; and the
number of the level's positions. An array that breaks the conditions of R69 is a Format Error; POS of a run-length level meets those
of a compressed one (log 104). -/
def State.children (s : State) (c : Ctx) (l : Level) (n : Nat) : Res (List (List (Nat × Nat)) × Nat) :=
  match l.kind with
  | 0 => .ok ((List.range n).map fun p => (List.range l.dim).map fun x => (p * l.dim + x, x), n * l.dim) s
  | 1 =>
    (s.engArray c l.pos (n + 1)).bind fun pos s =>
      if pos.getD 0 0 ≠ 0 ∨ !rising pos then .trap badFormat s else
      (s.engArray c l.crd (pos.getD n 0)).bind fun crd s =>
        let kids (p : Nat) : List (Nat × Nat) :=
          (List.range' (pos.getD p 0) (pos.getD (p + 1) 0 - pos.getD p 0)).map fun q => (q, crd.getD q 0)
        let all := (List.range n).map kids
        if all.all fun k => strictlyRising (k.map (·.2)) && k.all fun x => decide (x.2 < l.dim) then
          .ok (all, pos.getD n 0) s
        else .trap badFormat s
  | 2 =>
    let bits := n * l.dim
    (s.engArray c l.pos (ceilDiv bits 32)).bind fun words s =>
      let set (b : Nat) : Bool := (words.getD (b / 32) 0).testBit (b % 32)
      if (List.range' bits (ceilDiv bits 32 * 32 - bits)).any set then .trap badFormat s
      else
        let before (b : Nat) : Nat := ((List.range b).filter set).length
        .ok ((List.range n).map fun p =>
          ((List.range l.dim).filter fun x => set (p * l.dim + x)).map fun x => (before (p * l.dim + x), x),
          before bits) s
  | 3 =>
    (s.engArray c l.crd n).bind fun crd s =>
      if crd.all fun x => decide (x < l.dim) then
        .ok ((List.range n).map fun p => [(p, crd.getD p 0)], n) s
      else .trap badFormat s
  | _ =>
    (s.engArray c l.pos (n + 1)).bind fun pos s =>
      if pos.getD 0 0 ≠ 0 ∨ !rising pos then .trap badFormat s else
      (s.engArray c l.crd (pos.getD n 0)).bind fun crd s =>
      (s.engArray c l.len (pos.getD n 0)).bind fun len s =>
        let runs (p : Nat) : List Nat := List.range' (pos.getD p 0) (pos.getD (p + 1) 0 - pos.getD p 0)
        if (List.range n).all fun p => runsOk l.dim ((runs p).map fun r => (crd.getD r 0, len.getD r 0)) then
          .ok ((List.range n).map fun p => (runs p).flatMap fun r =>
            (List.range (len.getD r 0)).map fun i => (r, crd.getD r 0 + i), pos.getD n 0) s
        else .trap badFormat s

/-! ## FCONV.F2D (R218) -/

/-- ROWS and COLS of a command. -/
def convRows (w : Vector Word 8) : Nat := field w[3] 32 32
def convCols (w : Vector Word 8) : Nat := field w[3] 0 32

/-- The address of element x of dense row r. -/
def denseAddr (w : Vector Word 8) (vtype r x : Nat) : Word :=
  w[2] + BitVec.ofNat 64 r * w[4] + BitVec.ofNat 64 (x * valueBytes vtype)

/-- The values of one row, column by column; +0 at every absent position. -/
def State.rowValues (s : State) (c : Ctx) (t : Tensor) (kids : List (Nat × Nat)) : List Nat → Res (List Nat)
  | [] => .ok [] s
  | x :: xs =>
    let z := valueBytes t.vtype
    (match kids.find? fun (k : Nat × Nat) => k.2 == x with
      | some k => s.engRead c (t.values + BitVec.ofNat 64 (k.1 * z)) z
      | none => .ok 0 s).bind fun v s => (s.rowValues c t kids xs).bind fun l s => .ok (v :: l) s

/-- One dense row written in full. -/
def fillRow (id : Nat) (t : Tensor) (outer : List (Nat × Nat)) (inner : List (List (Nat × Nat))) (c : EngCmd)
    (s : State) : Res Unit :=
  let kids := match outer.find? fun (k : Nat × Nat) => k.2 == c.done with
    | some k => inner.getD k.1 []
    | none => []
  (s.rowValues c.ctx t kids (List.range (convCols c.words))).bind fun l s =>
    (State.engWriteUnit c.ctx (valueBytes t.vtype)
      ((List.range l.length).map fun x => (denseAddr c.words t.vtype c.done x, l.getD x 0)) s).bind fun _ s =>
        .ok () (s.setProgress id (c.done + 1) c.aux)

/-- FCONV.F2D: the input record is checked whole under R70, then the rows are written in ascending order. -/
def State.fibreToDense (s : State) (id limit fuel : Nat) (c : EngCmd) : Res Unit :=
  (s.readTensor c.ctx c.words[0]).bind fun t s =>
    if !t.valid || t.outer.dim != convRows c.words || t.inner.dim != convCols c.words then .trap badFormat s else
    (s.children c.ctx t.outer 1).bind fun o s =>
    (s.children c.ctx t.inner o.2).bind fun i s =>
      if i.2 ≠ t.nvals then .trap badFormat s
      else engUnits id limit fuel (fillRow id t (o.1.getD 0 []) i.1) s

/-! ## FCONV.D2F (R218) -/

/-- The elements of one dense row. -/
def State.denseRow (s : State) (c : EngCmd) (vtype : Nat) : List Nat → Res (List (Nat × Nat))
  | [] => .ok [] s
  | x :: xs => (s.engRead c.ctx (denseAddr c.words vtype c.done x) (valueBytes vtype)).bind fun v s =>
      (s.denseRow c vtype xs).bind fun l s => .ok ((x, v) :: l) s

/-- The values of one row emitted from position n on, with their coordinates for a compressed level; more values than the
capacity are a Format Error. -/
def emitValues (c : EngCmd) (t : Tensor) : List (Nat × Nat) → Nat → List (Nat × Nat) → State → Res (List (Nat × Nat))
  | [], _, spans, s => .ok spans s
  | (x, v) :: r, n, spans, s =>
    if t.nvals ≤ n then .trap badFormat s else
    let z := valueBytes t.vtype
    (s.engWrite c.ctx (t.values + BitVec.ofNat 64 (n * z)) z v).bind fun y s =>
      (if t.inner.kind = 1 then
        (s.engWrite c.ctx (t.inner.crd + BitVec.ofNat 64 (4 * n)) 4 x).bind fun y' s => .ok (spans ++ [y, y']) s
       else .ok (spans ++ [y]) s).bind fun spans s => emitValues c t r (n + 1) spans s

/-- The bitmap words that row r touches, each with the bits of earlier rows as memory holds them and this row's bits. -/
def State.bitmapWords (s : State) (c : EngCmd) (t : Tensor) (cols : List Nat) : List Nat → Res (List (Word × Nat))
  | [] => .ok [] s
  | i :: is =>
    let lo := c.done * t.inner.dim
    let a := t.inner.pos + BitVec.ofNat 64 (4 * i)
    (if 32 * i < lo then s.engRead c.ctx a 4 else .ok 0 s).bind fun old s =>
      let kept := if 32 * i < lo then old % 2 ^ (lo - 32 * i) else 0
      let new := (cols.filter fun x => (lo + x) / 32 == i).foldl (fun w x => w ||| 2 ^ ((lo + x) % 32)) kept
      (s.bitmapWords c t cols is).bind fun l s => .ok ((a, new) :: l) s

/-- One row of FCONV.D2F: its elements that are not zero emitted, then its POS entry, or its bits, written. -/
def emitRow (id : Nat) (t : Tensor) (c : EngCmd) (s : State) : Res Unit :=
  (s.denseRow c t.vtype (List.range t.inner.dim)).bind fun row s =>
    let some_ := row.filter fun e => !isZero t.vtype e.2
    (emitValues c t some_ c.aux [] s).bind fun spans s =>
      let n := c.aux + some_.length
      let lo := c.done * t.inner.dim
      (if t.inner.kind = 1 then
        .ok [(t.inner.pos + BitVec.ofNat 64 (4 * (c.done + 1)), n)] s
       else s.bitmapWords c t (some_.map (·.1))
        (List.range' (lo / 32) ((lo + t.inner.dim - 1) / 32 + 1 - lo / 32))).bind fun l s =>
          (State.engWriteList c.ctx 4 l spans s).bind fun spans s =>
            .ok () ((s.unpoison spans).setProgress id (c.done + 1) n)

/-- The record's VALID bit written, the rest of its first word as it is (R70). -/
def State.setValid (s : State) (c : EngCmd) (v : Bool) : Res Unit :=
  (s.engReadAtomic c.ctx c.words[1] 8).bind fun h s =>
    (s.engWrite c.ctx c.words[1] 8 (h % 2 ^ 63 + if v then 2 ^ 63 else 0)).bind fun _ s => .ok () s

/-- FCONV.D2F: VALID = 0 first, the rows, then NVALS and VALID = 1, each once. The entry before row 0 of a compressed level is 0.
A command that is reissued with every row done finds the record closed, unless the fault was in closing it (R214). -/
def State.denseToFibre (s : State) (id limit fuel : Nat) (c : EngCmd) : Res Unit :=
  if c.closed then .ok () s else
  (s.readTensor c.ctx c.words[1]).bind fun t s =>
    if t.outer.kind ≠ 0 ∨ t.outer.dim ≠ convRows c.words ∨ (t.inner.kind ≠ 1 ∧ t.inner.kind ≠ 2) ∨
        t.inner.dim ≠ convCols c.words then .trap badFormat s
    else if convRows c.words ≤ c.done ∧ !c.begun ∧ t.valid then .ok () s else
    (if c.begun then .ok () s else s.setValid c false).bind fun _ s =>
    (if !c.begun ∧ c.done = 0 ∧ t.inner.kind = 1 then
      (s.engWrite c.ctx t.inner.pos 4 0).bind fun _ s => .ok () s else .ok () s).bind fun _ s =>
    (engUnits id limit fuel (emitRow id t) s).bind fun _ s =>
      match s.cmds.get? id with
      | none => .ok () s
      | some c' =>
        if c'.done < convRows c.words then .ok () s
        else
          (s.engWrite c.ctx (c.words[1] + 16) 8 c'.aux).bind fun _ s => (s.setValid c true).bind fun _ s =>
            .ok () (s.mapCmd id fun c => { c with closed := true })

end Sys2Proof.Machine
end

