-- ==== Sys2Proof/Machine/Command.lean ====
section
/-!
DEFINITION. The six engine instructions (R212, R213) and the events that accept, complete and fault their commands (R214).
-/

namespace Sys2Proof.Machine

/-! ## Issue (R212, R213) -/

/-- Every reserved field of a descriptor is zero and every code is assigned (R213, R215, R216, R218, R219). -/
def descriptorOk (k : EngKind) (w : Vector Word 8) : Bool :=
  field w[6] 4 36 == 0 && field w[7] 54 2 != 3 &&
  (if k = .sfbag then decide (field w[6] 40 8 ≤ 3) else field w[6] 40 24 == 0) &&
  match k with
  | .cpy => field w[0] 57 7 == 0 && field w[1] 57 7 == 0 && field w[2] 40 24 == 0 && w[3] == 0 && w[4] == 0 && w[5] == 0
  | .kvgather => w[4] == 0 && field w[5] 32 32 == 0
  | .kvappend => field w[3] 32 32 == 0 && w[4] == 0 && field w[5] 32 32 == 0
  | .d2f => w[0] == 0 && field w[5] 32 32 == 0
  | .f2d => w[1] == 0 && field w[5] 32 32 == 0
  | .sfbag => true

/-- The unit that serves a kind of command: 0 the cask's copy engine, 1 its format converter, 2 the Cellar tier. -/
def EngKind.unit : EngKind → Nat
  | .cpy | .kvgather | .kvappend => 0
  | .d2f | .f2d => 1
  | .sfbag => 2

/-- The commands that an engine holds: four channels, one running and one waiting, four per strand (R212). -/
def EngKind.room : EngKind → Nat
  | .cpy | .kvgather | .kvappend => 4
  | .d2f | .f2d => 2
  | .sfbag => 4

/-- Whether two commands are held by one engine. -/
def EngCmd.shares (c d : EngCmd) : Bool :=
  c.kind.unit == d.kind.unit &&
  if c.kind = .sfbag then c.strand == d.strand else caskOf (tileOf c.strand) == caskOf (tileOf d.strand)

/-- Whether a cask has lost all of its tiles: its engines then accept nothing (R417). -/
def State.caskOut (s : State) (c : Nat) : Bool := (List.range 4).all fun i => s.tileOut (4 * c + i)

/-- Whether the engine can accept a command now: it has room, and what the strand accessed before has been performed,
since acceptance is a release (R212). -/
def State.canAccept (s : State) (c : EngCmd) : Bool :=
  decide ((s.cmds.filter fun e => e.2.shares c).length < c.kind.room) &&
  (c.kind == .sfbag || !s.caskOut (caskOf (tileOf c.strand))) && (s.strand c.strand).outst.isEmpty && !s.owesTrigger c.strand

/-- The command that strand k issues. A descriptor with STATE = 1 resumes from DONE, and from CARRY; PEND is read as it
stands (R214, R217). -/
def State.command (s : State) (k : Nat) (kind : EngKind) (desc cpl value : Word) (w : Vector Word 8) : EngCmd :=
  let x := s.strand k
  let again := field w[7] 54 2 = 1
  { id := 0, kind := kind, strand := k, task := x.taskId, desc := desc, cpl := cpl, value := value, words := w,
    scope := x.scopes.getD (field w[6] 0 4) Scope.empty, root := x.root, asid := x.asid, sup := x.pl,
    since := 0, begun := false, closed := false, told := false, early := [], lines := [], run := EngRun.start,
    done := if again then field w[7] 0 48 else 0,
    aux := match kind with
      | .kvappend => field w[5] 0 32
      | .d2f => if again then field w[5] 0 32 else 0
      | _ => 0 }

/-- The engine accepts the command of strand k, and the instruction retires. -/
def State.acceptCommand (s : State) (k : Nat) (c : EngCmd) : State :=
  ({ s.newId.2 with cmds := s.cmds.put s.newId.1 { c with id := s.newId.1, since := s.clock } }).mapStrand k
    fun x => { x.retired with run := .running, pc := x.pc + 4 }

/-- An engine instruction: the steps of R212. -/
def State.engineOp (s : State) (kind : EngKind) (desc cpl value : Word) : Res Unit :=
  if desc.toNat % 64 ≠ 0 then .trap (Trap.sync 0x03 desc) s
  else if cpl.toNat % 8 ≠ 0 then .trap (Trap.sync 0x03 cpl) s
  else (s.readRecord s.ctx desc).bind fun w s =>
    if !descriptorOk kind w then .trap (Trap.sync 0x1A desc) s
    else
      let c := s.command s.cur kind desc cpl value w
      if s.canAccept c then .ok () (s.acceptCommand s.cur c)
      else .ok () (s.mapMe fun x => { x with run := .accepting c })

/-- CPY (R212, R215). -/
def execCpy (a b x : Reg) (s : State) : Host.Outcome State Fault Refusal :=
  (s.engineOp .cpy (s.readG a) (s.readG b) (s.readG x)).finish

/-- KVGATHER (R212, R216). -/
def execKvgather (a b x : Reg) (s : State) : Host.Outcome State Fault Refusal :=
  (s.engineOp .kvgather (s.readG a) (s.readG b) (s.readG x)).finish

/-- KVAPPEND (R212, R217). -/
def execKvappend (a b x : Reg) (s : State) : Host.Outcome State Fault Refusal :=
  (s.engineOp .kvappend (s.readG a) (s.readG b) (s.readG x)).finish

/-- FCONV.D2F (R212, R218). -/
def execFconvD2f (a b x : Reg) (s : State) : Host.Outcome State Fault Refusal :=
  (s.engineOp .d2f (s.readG a) (s.readG b) (s.readG x)).finish

/-- FCONV.F2D (R212, R218). -/
def execFconvF2d (a b x : Reg) (s : State) : Host.Outcome State Fault Refusal :=
  (s.engineOp .f2d (s.readG a) (s.readG b) (s.readG x)).finish

/-- SFBAG (R212, R219). -/
def execSfbag (a b x : Reg) (s : State) : Host.Outcome State Fault Refusal :=
  (s.engineOp .sfbag (s.readG a) (s.readG b) (s.readG x)).finish

/-- ENGINE_ACCEPT: the command at which a strand stalls is accepted when the engine has room (R212). -/
def execEngineAccept (k : Nat) (s : State) : Host.Outcome State Fault Refusal :=
  match (s.strand k).run with
  | .accepting c => if s.canAccept c then .next (s.acceptCommand k c) else .next s
  | _ => .next s

/-! ## Running a command (R214) -/

/-- The units of a command. -/
def EngCmd.total (c : EngCmd) : Nat :=
  match c.kind with
  | .cpy => cpyLen c.words
  | .kvgather | .kvappend => field c.words[3] 0 32
  | .d2f | .f2d => convRows c.words
  | .sfbag => field c.words[5] 0 32

/-- STATE of the descriptor as the command was issued with it. -/
def EngCmd.state (c : EngCmd) : Nat := field c.words[7] 54 2

/-- Whether a command was issued with every unit done: STATE = 2, or STATE = 1 and a DONE that counts every unit (R214). -/
def EngCmd.allDone (c : EngCmd) : Bool := c.state == 2 || (c.state == 1 && decide (c.total ≤ field c.words[7] 0 48))

/-- The work of a command, at most fuel units and up to DONE = limit; none for a command that was issued with every unit done, but
for an output record that is still to be closed. -/
def State.work (s : State) (id limit fuel : Nat) (c : EngCmd) : Res Unit :=
  if c.state = 2 ∨ (c.allDone ∧ c.kind ≠ .d2f) ∨ (c.begun ∧ c.total ≤ c.done ∧ c.kind ≠ .d2f) then .ok () s
  else match c.kind with
    | .cpy => engUnits id limit fuel (cpyUnit id limit) s
    | .kvgather => s.kvGather id limit fuel c
    | .kvappend => s.kvAppend id limit fuel c
    | .d2f => s.denseToFibre id limit fuel c
    | .f2d => s.fibreToDense id limit fuel c
    | .sfbag => s.sfBag id limit fuel c

/-- The writes of descriptor words 5 (PEND or CARRY, where the command has one) and 7 (R213, R214). -/
def State.writeDesc (s : State) (c : EngCmd) (cause state reason : Nat) : Res Unit :=
  (if c.kind = .kvappend ∨ c.kind = .d2f then s.writeAux c c.aux else .ok () s).bind fun _ s =>
  ((s.engWrite c.ctx (c.desc + 56) 8 (cause * 2 ^ 56 + state * 2 ^ 54 + reason * 2 ^ 48 + c.done % 2 ^ 48)).bind
    fun _ s => .ok () s).descriptor

/-- The strand that runs a task now. -/
def State.strandOf (s : State) (task : Nat) : Option Nat :=
  (s.strands.find? fun e => e.2.taskId == task).map (·.1)

/-- The cause of the strand's trap for a fault's CAUSE (R214). -/
def engCause (cause : BitVec 8) : BitVec 8 := if cause = 0x1A ∨ cause = 0x17 then cause else 0x0D

/-- The fault of a task's command becomes pending: on the strand that runs the task, or with its context while it is
suspended; of a task that has ended it is counted (R214). -/
def State.engineTrap (s : State) (c : EngCmd) (t : Trap) : State :=
  let e := (engCause t.cause, t.addr, c.desc)
  match s.strandOf c.task with
  | some k => s.mapStrand k fun x => x.addEngine e.1 e.2.1 e.2.2
  | none =>
    if s.dies.any fun d => d.resumeq.any fun r => r.ctxs.any fun x => x.task == c.task then
      let add (x : SavedCtx) : SavedCtx :=
        if x.task = c.task then { x with since := { x.since with engine := x.since.engine ++ [e] } } else x
      { s with dies := s.dies.map fun d => { d with resumeq := d.resumeq.map fun r => { r with ctxs := r.ctxs.map add } } }
    else s.count (dieOfStrand c.strand) .engorphan

/-- How a command's step ends: the command is done or has stopped; it waits, and nothing of the step stays but what it waits for; or
what it has written stands, and the rest waits for the triggers of those writes (R355). -/
inductive EngEnd where
  | done (s : State)
  | faulted (s : State)
  | waits (s : State)
  | holds (s : State)
deriving DecidableEq, Repr

/-- The end of a command by a fault whose trap becomes pending. -/
def State.dropFaulted (s : State) (id : Nat) (c : EngCmd) (t : Trap) : EngEnd :=
  .faulted ({ s with cmds := s.cmds.drop id }.engineTrap c { t with stepped := false })

/-- A fault of a command: its descriptor written, no completion write, its trap pending. A descriptor word that cannot be
written leaves the descriptor as it is, and is the address that the trap names (R214). -/
def State.faultCommand (s : State) (id : Nat) (t : Trap) : EngEnd :=
  match s.cmds.get? id with
  | none => .waits s
  | some c =>
    if t.stepped then s.dropFaulted id c t
    else match s.writeDesc c t.cause.toNat 1 t.row.toNat with
    | .ok _ s => s.dropFaulted id c t
    | .trap t' _ => s.dropFaulted id c t'
    | .wait s => .waits s

/-- Whether a command makes only its completion write: one that was issued with every unit done (R214), and a CPY of no bytes (R215;
log 102). -/
def EngCmd.onlyCompletes (c : EngCmd) : Bool := (c.allDone && !c.begun) || (c.kind == .cpy && c.total == 0)

/-- The end of a command whose work is done: DONE and STATE = 2, then the completion write, if there is one (R214). The completion
write comes after every payload byte and both words of the descriptor, whose writes are complete once their triggers are enqueued
(R355). -/
def State.completeCommand (s : State) (id : Nat) : EngEnd :=
  match s.cmds.get? id with
  | none => .waits s
  | some c =>
    let owed (s : State) : Bool := s.owes (.command id)
    if owed s then .holds s else
    match if c.told ∨ c.onlyCompletes then .ok () s else s.writeDesc c 0 2 0 with
    | .wait s => .waits s
    | .trap t _ => s.dropFaulted id c t
    | .ok _ s =>
      let s := s.mapCmd id fun c => { c with told := true }
      if c.cpl = 0 then .done { s with cmds := s.cmds.drop id }
      else if owed s then .holds s
      else match s.engWrite c.ctx c.cpl 8 c.value.toNat with
        | .ok _ s => .done { s with cmds := s.cmds.drop id }
        | .wait s => .waits s
        | .trap t s => (s.setProgress id (max c.done c.total) c.aux).faultCommand id { t with addr := c.cpl, row := 0 }

/-- Whether an earlier KVAPPEND of the same engine names the same table (R217). -/
def State.tableBusy (s : State) (id : Nat) (c : EngCmd) : Bool :=
  c.kind == .kvappend && s.cmds.any fun e =>
    decide (e.1 < id) && e.2.kind == .kvappend && e.2.shares c && e.2.words[1] == c.words[1] && e.2.asid == c.asid

/-- Whether a command is the one that its engine runs: a converter runs the older of its two commands first, and appends to one table
go in the order of acceptance (R212, R217). -/
def State.engTurn (s : State) (id : Nat) (c : EngCmd) : Bool :=
  !s.tableBusy id c && (c.kind.unit != 1 || s.cmds.all fun e => decide (id ≤ e.1) || !e.2.shares c)

/-- The state in which a step starts on a command: it goes through its reads from the first, and where a number is given makes one new
read, after passing over so many. -/
def State.startRun (s : State) (id : Nat) (budget : Option Nat) : State :=
  s.mapCmd id fun c => { c with run := { EngRun.start with seen := c.run.seen, budget := budget, begun := c.begun } }

/-- The state as a step leaves a command whose reads and reservation are as given: nothing of the step itself stays. -/
def State.settleRun (s : State) (id : Nat) (seen : List EngRead) (lines : List Nat) : State :=
  s.mapCmd id fun c => { c with lines := lines, run := { EngRun.start with seen := seen } }

/-- A command run to its end. -/
def State.runCommand (s : State) (id : Nat) (c : EngCmd) : EngEnd :=
  match (s.startRun id none).work id c.total (c.total + 1) c with
  | .ok _ s => s.completeCommand id
  | .trap t s => s.faultCommand id t
  | .wait s => .waits s

/-- Whether the translation x, whose entry in memory has changed, has been discarded on tile t between two states (R368). -/
def State.discarded (s s' : State) (t : Nat) (x : TlbEnt) : Bool :=
  s.load64 x.at_ != x.pte && !(s'.tile t).tlb.contains x && !(s'.tile t).l1tlb.contains x

/-- What stays of a command's step that waits: the snoops and position queries it has sent, and the translations it has discarded
(R368). Its other effects have not taken place (log 18). -/
def State.waiting_ (s s' : State) : State :=
  let keep (t : Nat) (l : List TlbEnt) : List TlbEnt := l.filter fun x => !s.discarded s' t x
  { s with snoops := s'.snoops, queries := s'.queries, asked := s'.asked,
           tiles := s.tiles.map fun e => (e.1, { e.2 with tlb := keep e.1 e.2.tlb, l1tlb := keep e.1 e.2.l1tlb }) }

/-- The command with a number, if it is its turn. -/
def State.turn? (s : State) (id : Nat) : Option EngCmd := (s.cmds.get? id).filter fun c => s.engTurn id c

/-- Whether the reads of later units may be made before the present one is done: not where one unit's writes come before the next
one's reads, in KVAPPEND, in a descending CPY, and in the output record of D2F (R215, R217, R218, R286). -/
def EngCmd.unordered (c : EngCmd) : Bool :=
  match c.kind with
  | .kvappend | .d2f => false
  | .cpy => !cpyDown c.words
  | _ => true

/-- An engine makes a read of a command, of its present unit or of a later one, in no order with the others (R286, R310). What the read
does stays. -/
def State.engReadAhead (s : State) (id ahead skip : Nat) : State :=
  match s.turn? id with
  | none => s
  | some c =>
    let n := c.done + if c.unordered then ahead else 0
    match ((s.startRun id (some skip)).mapCmd id fun c => { c with done := n }).work id c.total 1 { c with done := n } with
    | .wait s' =>
      match s'.cmds.get? id with
      | none => s
      | some c' =>
        (s'.mapCmd id fun x => { x with done := c.done, aux := c.aux, begun := c.begun, early := c.early }).settleRun id c'.run.seen
          c.lines
    | _ => s

/-- An engine takes the write reservation over the lines that a command's unit is to write, if no other stands in the way; load
reservations on them are lost (R207, R214). -/
def State.engHoldLines (s : State) (id : Nat) : State :=
  match s.turn? id with
  | none => s
  | some c =>
    match (s.startRun id none).work id c.total 1 c with
    | .ok _ s' =>
      let l := ((s'.cmds.get? id).map (·.run.wrote)).getD []
      let lose (x : Strand) : Strand := { x with resv := x.resv.filter fun r => !l.contains (lineOf r.pa) }
      ({ s with strands := s.strands.map fun (e : Nat × Strand) => (e.1, lose e.2) }).mapCmd id fun c => { c with lines := l }
    | .trap _ _ => s
    | .wait s' => s.waiting_ s'

/-- An engine does one unit of a command: its reads, those made ahead among them, its writes, its progress (R286). -/
def State.engOneUnit (s : State) (id : Nat) : State :=
  match s.turn? id with
  | none => s
  | some c =>
    match (s.startRun id none).work id c.total 1 c with
    | .ok _ s' => s'.settleRun id (((s'.cmds.get? id).map (·.run.seen)).getD []) []
    | .trap _ _ => s
    | .wait s' => s.waiting_ s'

/-- Whether the unit at start may be done before those that come before it: the units of the command are unordered, it is not done, and
of a CPY it begins an aligned 8 bytes of a source that the destination does not overlap (R215, R286). -/
def EngCmd.mayLead (c : EngCmd) (start : Nat) : Bool :=
  c.unordered && decide (c.done < start) && decide (start < c.total) &&
  c.early.all (fun x => decide (start < x.1) || decide (x.1 + x.2 ≤ start)) &&
  (c.kind != .cpy || ((c.words[0].toNat + start) % 8 == 0 &&
    (decide (c.words[1].toNat + c.total ≤ c.words[0].toNat) || decide (c.words[0].toNat + c.total ≤ c.words[1].toNat))))

/-- An engine does a unit of a command that many units on, while those before it, which would all pass, are still to be done (R286). A
fault of an earlier one leaves DONE at that one (R214; log 18). -/
def State.engLead (s : State) (id ahead : Nat) : State :=
  match s.turn? id with
  | none => s
  | some c =>
    let start := c.done + ahead
    if !c.mayLead start then s
    else
      let unit (_ : Unit) (_ : State) : Res Unit :=
        ((s.startRun id none).mapCmd id fun x => { x with done := start }).work id c.total 1 { c with done := start }
      match ((s.startRun id none).work id start (start + 1) c).bind unit with
      | .ok _ s' =>
        let once := (((s'.cmds.get? id).map (·.run.seen)).getD []).filter fun x => x.unit == 0
        let seen := once ++ c.run.seen.filter fun x => x.unit != 0 && x.unit != start + 1
        (s'.mapCmd id fun x => { x with done := c.done, aux := c.aux, early := c.early ++ [(start, x.done - start)] }).settleRun id seen
          c.lines
      | .trap _ _ => s
      | .wait s' => s.waiting_ s'

/-- An engine does one unit of a command: the present one, or one that many units on. -/
def State.engUnitAt (s : State) (id ahead : Nat) : State := if ahead = 0 then s.engOneUnit id else s.engLead id ahead

/-- ENGINE_COMPLETE: a command whose remaining work and writes all pass completes (R214); otherwise nothing happens but the
requests on which it waits. -/
def execEngineComplete (id : Nat) (s : State) : Host.Outcome State Fault Refusal :=
  match s.turn? id with
  | none => .next s
  | some c =>
    match s.runCommand id c with
      | .done s' => .next s'
      | .faulted _ => .next s
      | .waits s' => .next (s.waiting_ s')
      | .holds s' => .next (s'.settleRun id [] [])

/-- A failure of a memory rank under a command, after n bags: Cellar Error with TREC 0 (R219). -/
def State.rankFails (s : State) (id n : Nat) (c : EngCmd) : EngEnd :=
  if c.kind ≠ .sfbag ∨ c.total ≤ n ∨ c.allDone then .waits s
  else match (s.startRun id none).work id n (n + 1) c with
    | .ok _ s => if (s.cmds.get? id).any fun c => c.done == n then s.faultCommand id (engStop 0x17 0 0) else .waits s
    | .trap _ s => .waits s
    | .wait s => .waits s

/-- Whether some request of the next unit of a command leaves the module or the memory-side die (R389). -/
def State.nextLeaves (s : State) (id : Nat) (c : EngCmd) : Bool :=
  match (s.startRun id none).work id c.total 1 c with
  | .ok _ s => (s.cmds.get? id).any (·.run.far)
  | _ => false

/-- A request of a command that times out, after n units: CAUSE 0x19, 100 µs after the command's acceptance at the earliest (R389).
The manual does not say which address of the unit it is, so the address is a free value (log 20); of the completion write it is the
completion address (R214). -/
def State.timesOut (s : State) (id n : Nat) (c : EngCmd) : EngEnd :=
  if s.clock < c.since + 100_000 then .waits s
  else match (s.startRun id none).work id n (n + 1) c with
    | .trap _ s => .waits s
    | .wait s => .waits s
    | .ok _ s =>
      let s := s.count (dieOfStrand c.strand) .rtimeout
      match s.cmds.get? id with
      | none => .waits s
      | some c' =>
        if c'.done ≠ n then .waits s
        else if n < c.total then
          if s.nextLeaves id c' then s.free.2.faultCommand id (engStop 0x19 0 s.free.1) else .waits s
        else if c.cpl = 0 then .waits s
        else match s.engCheck c.ctx c.cpl .store with
          | .ok g s' => if g.leaves (tileOf c.strand) then s'.faultCommand id (engStop 0x19 0 c.cpl) else .waits s
          | _ => .waits s

/-- ENGINE_FAULT: a command stops at its first failing access, or at an error from outside (R214, R219, R389); otherwise
nothing happens. -/
def execEngineFault (id : Nat) (err : Option EngErr) (s : State) : Host.Outcome State Fault Refusal :=
  match s.turn? id with
  | none => .next s
  | some c =>
      let r := match err with
        | none => s.runCommand id c
        | some (.rankFailure n) => s.rankFails id n c
        | some (.timeout n) => s.timesOut id n c
      match r with
      | .faulted s' => .next s'
      | .done _ => .next s
      | .waits _ => .next s
      | .holds _ => .next s

end Sys2Proof.Machine
end

