-- ==== Sys2Proof/Machine/Fleet.lean ====
section
/-!
DEFINITION. Running a module: the power governor (R413, R414), soft errors (R416), attestation over SPDM (R406, R407) and
PLDM (R419).
-/

namespace Sys2Proof.Machine

/-! ## The governor (R414) -/

/-- The window's readings are those for which the governor may step up. -/
def MDie.low (m : MDie) (pwr : BitVec 16) (temp : BitVec 8) : Bool :=
  decide (100 * pwr.toNat < 95 * m.plim.toNat) && decide (temp.toNat + 5 < m.tlim.toNat)

/-- GOVERNOR_WINDOW: the end of a 10 µs window of the reference clock, with its readings; nothing where no window has ended since the
last one, and a window without readings breaks the row of low ones (log 36). The energy of the window is a free value. A reading
above 125 °C raises the alarm (R408, R414). -/
def execGovernorWindow (die : Nat) (pwr : BitVec 16) (temp : BitVec 8) (s : State) : Host.Outcome State Fault Refusal :=
  let m := s.mdie die
  let n := s.clock / 10_000
  if n ≤ m.window then .next s else
  let run := if m.window + 1 = n then m.lowWindows else 0
  let low := if m.low pwr temp then min (run + 1) 10 else 0
  let energy := Counter.energy.index
  let s := (s.mapMDie die fun m =>
    { m with pwr := pwr, temp := temp, lowWindows := low, window := n,
             counters := m.counters.setIfInBounds energy (m.counters.getD energy 0 + s.free.1) })
  let s := { s with tick := s.tick + 1 }
  let freq (f : Nat) (s : State) : State := s.mapMDie die fun m => { m with freq := BitVec.ofNat 16 f }
  if 125 < temp.toNat then .next ((freq 500 s).alarm 2)
  else if 115 < temp.toNat then .next (freq 500 s)
  else if m.plim.toNat < pwr.toNat ∨ m.tlim.toNat < temp.toNat then
    .next ((freq (max (m.freq.toNat - 25) 500) s).count die .govdown)
  else if low = 10 then .next (freq (min (m.freq.toNat + 25) 1000) s)
  else .next s

/-! ## Soft errors (R416) -/

/-- A soft error counted at memory-side die d. -/
def State.countEcc (s : State) (d : Nat) (corrected : Bool) : State := s.count d (if corrected then .cecc else .uecc)

/-- Whether a line lies in HBM or Cellar. -/
def memoryLine (l : Nat) : Bool :=
  decide (128 * l < 0xC0_0000_0000) || (decide (0x100_0000_0000 ≤ 128 * l) && decide (128 * l < 0x500_0000_0000))

/-- Whether a line is one that an L1D or L2 may hold modified: of HBM, Cellar, a peer or the host (R47, R59). -/
def cachedLine (l : Nat) : Bool :=
  memoryLine l || (decide (0x4_0000_0000_0000 ≤ 128 * l) && decide (128 * l < 0x10_0000_0000_0000))

/-- The compute die of a scratchpad line; none for a line of no scratchpad level (R47). -/
def scratchDie (l : Nat) : Option Nat :=
  match placeOf 0 (128 * l) with
  | .chip d _ => some d
  | .cask c _ => some (c / 40)
  | .tile t _ => some (dieOf t)
  | _ => none

/-- PATROL_SCRUB: the scrubber reads a line and writes back what it corrected (R416). -/
def execPatrolScrub (line : Nat) (corrected : Bool) (s : State) : Host.Outcome State Fault Refusal :=
  .next (if memoryLine line && corrected then s.count (homeDie (128 * line)) .cecc else s)

/-- A half of a line poisoned by an error that could not be corrected. -/
def State.strike (s : State) (line : Nat) (high corrected : Bool) : State :=
  if corrected then s else s.addPoison (2 * line + if high then 1 else 0)

/-- An uncorrectable error in a task's registers ends it as under TABORT, with exit value 0xFFFE, and counts as a double
trap (R416). -/
def State.registerError (s : State) (k : Nat) : State :=
  if (s.strand k).run = .free then s else (s.count (dieOfStrand k) .dbltrap).abortHard k 0xFFFE

/-- SOFT_ERROR (R416). -/
def execSoftError (e : SoftErr) (s : State) : Host.Outcome State Fault Refusal :=
  .next (match e with
    | .memory l high ok => if memoryLine l then (s.countEcc (homeDie (128 * l)) ok).strike l high ok else s
    | .scratchpad l high ok =>
      match scratchDie l with
      | some d => (s.countEcc d ok).strike l high ok
      | none => s
    | .slice t l h ok =>
      let s := s.countEcc (dieOf t) ok
      if ok then s else s.addPoison (halfOf (sliceKey t l) + h)
    | .cleanCopy d ok => s.countEcc d ok
    | .dirtyCopy d l high ok => if cachedLine l then (s.countEcc d ok).strike l high ok else s
    | .fetchLine d => s.countEcc d false
    | .registers k ok =>
      let s := s.countEcc (dieOfStrand k) ok
      if ok then s else s.registerError k
    | .directory u table ok =>
      let s := s.countEcc u ok
      if ok then s else s.fatalError (if table then 2 else 1) (4 + u)
    | .dispatcher u ok =>
      let s := s.countEcc u ok
      if ok then s else s.fatalError 4 u)

/-! ## Attestation (R406, R407) -/

/-- The module's answer to a party outside it. -/
def State.reply (s : State) (a : Answer) : State := { s with answer := a }

/-- The DOE mailbox answers from stage 5 on, and in stage 7 (R400). -/
def State.doeOpen (s : State) : Bool := decide (5 ≤ s.cogor.stage.toNat)

/-- An SPDM request that must come after others: it is answered when the connection has come so far, and with an error
otherwise (R407; log 37). -/
def State.spdmAt (s : State) (ready : Spdm → Bool) (f : State → State) : Host.Outcome State Fault Refusal :=
  if !s.doeOpen then .next (s.reply .retry)
  else if ready s.cogor.spdm then .next (f s)
  else .next (s.reply .spdmError)

/-- GET_VERSION: SPDM 1.3; the connection starts anew (R407). -/
def execGetVersion (s : State) : Host.Outcome State Fault Refusal :=
  s.spdmAt (fun _ => true) fun s =>
    (s.mapCogor fun c => { c with spdm := .versioned }).reply (.spdm [[0x13]] [] [] [])

/-- GET_CAPABILITIES (R407). -/
def execGetCapabilities (s : State) : Host.Outcome State Fault Refusal :=
  s.spdmAt (fun x => x == .versioned) fun s => (s.mapCogor fun c => { c with spdm := .capable }).reply .done

/-- NEGOTIATE_ALGORITHMS: the answer names ECDSA P-384 and SHA-384 (R407). -/
def execNegotiateAlgorithms (s : State) : Host.Outcome State Fault Refusal :=
  s.spdmAt (fun x => x == .capable) fun s =>
    (s.mapCogor fun c => { c with spdm := .negotiated }).reply (.algorithms [.ecdsaP384, .sha384])

/-- The measurement of the running image (R406). -/
def Cogor.measurement (c : Cogor) : BitVec 384 := Config.sha384 c.running

/-- Whether identity keys exist: the key store is not erased, an image runs, and no alarm has cleared them (R406, R408). -/
def Cogor.hasKeys (c : Cogor) : Bool := !c.erased && !c.running.isEmpty && c.err != 5

/-- The certificate chain of the alias keys: of the ECDSA pair, and of the LMS tree in use with the DeviceID leaf that certified it
(R406). -/
def Cogor.chain (c : Cogor) : List Byte := Config.certificates Config.otpUds c.measurement c.aliasTree (c.deviceLeaf - 1)

/-- The answer to a request that needs the certified keys, or an SPDM error: the store is erased, or the write of the leaf that
certifies the LMS tree has failed (R406). -/
def State.withKeys (s : State) (f : State → State) : State :=
  if !s.cogor.hasKeys then s.reply .spdmError
  else match s.certify with
    | (true, s) => f s
    | (false, s) => s.reply .spdmError

/-- GET_DIGESTS (R407). -/
def execGetDigests (s : State) : Host.Outcome State Fault Refusal :=
  s.spdmAt (fun x => x == .negotiated) fun s =>
    s.withKeys fun s => s.reply (.spdm [leBytes 48 (Config.sha384 s.cogor.chain).toNat] [] [] [])

/-- GET_CERTIFICATE (R407). -/
def execGetCertificate (s : State) : Host.Outcome State Fault Refusal :=
  s.spdmAt (fun x => x == .negotiated) fun s => s.withKeys fun s => s.reply (.spdm [s.cogor.chain] [] [] [])

/-- The OTP fields other than UDS, as block 3 measures them (R405, R407). -/
def Cogor.otpBytes (c : Cogor) : List Byte :=
  leBytes 48 Config.otpEcdsaRoot.toNat ++ leBytes 32 Config.otpLmsRoot.toNat ++ leBytes 8 (2 ^ c.svnf - 1) ++
  leBytes 1 Config.otpEraseMask.toNat ++ [if c.erased then 1 else 0, if Config.otpLock then 1 else 0]

/-- Measurement block n (R407). -/
def Cogor.block (c : Cogor) (n : Nat) : List Byte :=
  match n with
  | 1 => leBytes 48 (Config.sha384 Config.romBytes).toNat
  | 2 => leBytes 48 c.measurement.toNat
  | 3 => leBytes 48 (Config.sha384 c.otpBytes).toNat
  | _ => leBytes 8 c.status.toNat

/-- A report over the blocks and the nonce, signed with both alias keys, with the certificate chain: of the next LMS tree when the
32,768 leaves of this one are used up. The leaf counter advances first, and no signature is given when that flash write fails
(R406, R407). -/
def State.report (s : State) (blocks : List (List Byte)) (nonce : Nat) : State :=
  (if s.cogor.aliasLeaf < 32768 then s else s.mapCogor Cogor.newTree).withKeys fun s =>
    match s.flashWrite with
    | (false, s) => s.reply .spdmError
    | (true, s) =>
      let c := s.cogor
      let signed := leBytes 32 nonce ++ blocks.flatten
      (s.mapCogor fun c => { c with aliasLeaf := c.aliasLeaf + 1 }).reply
        (.spdm blocks (Config.ecdsaSign Config.otpUds c.measurement signed)
          (Config.lmsSign Config.otpUds c.measurement c.aliasTree c.aliasLeaf signed) c.chain)

/-- CHALLENGE (R407). -/
def execChallenge (nonce : Nat) (s : State) : Host.Outcome State Fault Refusal :=
  s.spdmAt (fun x => x == .negotiated) fun s => s.report ((List.range 4).map fun i => s.cogor.block (i + 1)) nonce

/-- GET_MEASUREMENTS of block 1 to 4, or of all with 0xFF; signed as a report where a signature is asked for (R407; log 37). -/
def execGetMeasurements (ask : MeasureAsk) (nonce : Nat) (s : State) : Host.Outcome State Fault Refusal :=
  s.spdmAt (fun x => x == .negotiated) fun s =>
    let answer (l : List (List Byte)) : State := if ask.signed then s.report l nonce else s.reply (.spdm l [] [] [])
    if 1 ≤ ask.block ∧ ask.block ≤ 4 then answer [s.cogor.block ask.block]
    else if ask.block = 0xFF then answer ((List.range 4).map fun i => s.cogor.block (i + 1))
    else s.reply .spdmError

/-! ## PLDM (R419) -/

/-- Cogor answers PLDM once its firmware runs; for firmware update the ROM does in stage 7. -/
def State.pldmOpen (s : State) : Bool := decide (3 ≤ s.cogor.stage.toNat)

/-- TRANSFER: the image goes into the staging area. -/
def execTransferImage (img : List Byte) (s : State) : Host.Outcome State Fault Refusal :=
  if s.pldmOpen then .next ((s.mapCogor fun c => { c with staging := img, verified := false }).reply .done) else .next s

/-- VERIFY: R402 applied to the staged image. -/
def execVerifyImage (s : State) : Host.Outcome State Fault Refusal :=
  if s.pldmOpen then
    let ok := decide (verifyCode s.cogor.staging s.cogor.svnf = 0)
    .next ((s.mapCogor fun c => { c with verified := ok }).reply (if ok then .done else .error))
  else .next s

/-- The slots after the first or the second copy, or after a reset in the midst of it, which leaves a slot that verifies
under no key (log 38). -/
def Cogor.activate (c : Cogor) (copies : Nat) : Cogor :=
  match c.copied, copies with
  | 0, 0 => { c with slotBImg := [] }
  | 0, 1 => { c with slotBImg := c.slotA, slotA := [], copied := 1 }
  | 0, _ => { c with slotBImg := c.slotA, slotA := c.staging, copied := 0 }
  | _, 0 => { c with slotA := [] }
  | _, _ => { c with slotA := c.staging, copied := 0 }

/-- How many copies an activation still has to make. -/
def Cogor.copiesLeft (c : Cogor) : Nat := if c.copied = 0 then 2 else 1

/-- The copies of an activation made, the first copies of them; with fewer than are left to make a reset interrupts the activation
(R419). -/
def State.activate (s : State) (copies : Nat) : State :=
  let s' := s.mapCogor fun c => { c.activate copies with activating := none }
  if s.cogor.copiesLeft ≤ copies then s'.reply .done else s'.afterReset s.alarmed

/-- ACTIVATE_FIRMWARE: slot A into slot B, then the staged image into slot A. While a dump is written the activation waits until
it is complete (R411, R419). -/
def execActivateFirmware (copies : Nat) (s : State) : Host.Outcome State Fault Refusal :=
  if !s.pldmOpen then .next s
  else if !s.cogor.verified then .next (s.reply .error)
  else if s.cogor.dumping.isSome then .next (s.mapCogor fun c => { c with activating := some copies })
  else .next (s.activate copies)

/-- GET_SENSOR_READING: sensors 0 to 14 are the counters of R412, 15 PWR, 16 TEMP, 17 FREQ (log 39). The ROM of stage 7
answers firmware update only. -/
def execGetSensorReading (die sensor : Nat) (s : State) : Host.Outcome State Fault Refusal :=
  if !s.pldmOpen ∨ s.cogor.stage = 7 then .next s
  else
    let m := s.mdie die
    .next (s.reply (
      if 4 ≤ die then .error
      else if sensor < 15 then .value (m.counters.getD sensor 0)
      else if sensor = 15 then .value (zext m.pwr)
      else if sensor = 16 then .value (zext m.temp)
      else if sensor = 17 then .value (zext m.freq)
      else .error))

end Sys2Proof.Machine
end

