-- ==== Sys2Proof/Machine/Control.lean ====
section
/-!
DEFINITION. Writes to the registers of the control space: from a tile (R347), through BAR0 (R346), and the domain number
(R398).
-/

namespace Sys2Proof.Machine

/-- A write of v at offset b of die d's block; SUSPEND apart, which acts on the writing strand (R347, R359, R375). -/
def State.dieWrite (s : State) (d b : Nat) (v : Word) : State :=
  if b = 0x10 then s.bootlrWrite d v
  else if b = 0x20 then s.hvecWrite d v
  else if 0x100 ≤ b ∧ b < 0x150 then s.preqWrite d ((b - 0x100) / 8) v
  else s

/-- The governor's limits written; a field outside its range leaves that field as it is (R413). -/
def MDie.setLimits (m : MDie) (v : Word) : MDie :=
  { m with plim := if 400 ≤ field v 32 16 ∧ field v 32 16 ≤ 725 then BitVec.ofNat 16 (field v 32 16) else m.plim,
           tlim := if 70 ≤ field v 24 8 ∧ field v 24 8 ≤ 110 then BitVec.ofNat 8 (field v 24 8) else m.tlim }

/-- A write of v at offset b of memory-side die d's block (R393, R412, R413). -/
def State.mdieWrite (s : State) (d b : Nat) (v : Word) : State :=
  if b = 0x1000 then s.mapMDie d fun m => m.setLimits v else s

/-- A write of v at offset b of the Cogor mailbox, by the host or by a tile; SVNCOMMIT is the host's alone (R403, R404, R417, R418). -/
def State.cogorWrite (s : State) (host : Bool) (b : Nat) (v : Word) : State :=
  if b = 0x10 then s.dumpclrWrite v
  else if b = 0x18 then s.releaseWrite v
  else if b = 0x20 then (if host then s.svncommitWrite v else s)
  else if b = 0x28 then s.resetWrite (field v 0 2)
  else if b = 0x100 then s.retireWrite v
  else if b = 0x110 then s.partcfgWrite v
  else s

/-- A write of v to the register at offset o of the control space, by the host or by a tile (R347). -/
def State.controlWrite (s : State) (host : Bool) (o : Nat) (v : Word) : State :=
  if o < 0x4000_0000 then s.dieWrite (o / 0x1000_0000) (o % 0x1000_0000) v
  else if 0x8_0000_0000 ≤ o ∧ o < 0x8_4000_0000 then
    s.mdieWrite ((o - 0x8_0000_0000) / 0x1000_0000) ((o - 0x8_0000_0000) % 0x1000_0000) v
  else if 0xF_0000_0000 ≤ o ∧ o < 0xF_0001_0000 then s.cogorWrite host (o - 0xF_0000_0000) v
  else s

/-- What a tile's write of v at offset o waits for: that of a boot launch register, for the reading of its record; that of DUMPCLR, for the
header's half (R359, R391, R409). -/
def State.controlReady (s : State) (o : Nat) (v : Word) : Res Unit :=
  let d := o / 0x1000_0000
  if o < 0x4000_0000 ∧ o % 0x1000_0000 = 0x10 ∧ s.bootlrGate d v ≠ .open_ then .wait (s.bootlrWrite d v)
  else if o = 0xF_0000_0010 ∧ s.dumpclrSnoops v ≠ [] then .wait (s.dumpclrWrite v)
  else .ok () s

/-- Whether an offset is a SUSPEND register (R375). -/
def isSuspend (o : Nat) : Bool := decide (o < 0x4000_0000) && o % 0x1000_0000 == 0x200

/-- The control-space offset that an aligned doubleword access of a tile reaches, the entry whose D it sets, and the state after its
translation; none for an access that does not reach the control space, or may not (R48, R346, R347, R368; log 32). -/
def State.controlAt (s : State) (c : Ctx) (va : Word) (kind : AccKind) : Option (Nat × Option TlbEnt × State) :=
  if va.toNat % 8 ≠ 0 ∨ !c.sup then none
  else match s.translate c va kind with
    | (.ok pa _ ent, s) =>
      match placeOf c.tile pa with
      | .control o => if s.samePart (dieOf c.tile) (.control o) then some (o, markOf kind ent, s) else none
      | _ => none
    | _ => none

/-! ## BAR0 (R346, R347) -/

/-- The compute dies of partition fn, with their memory-side dies, in ascending order (R346, R418). -/
def State.partDies (s : State) (fn : Nat) : List Nat := (List.range 4).filter fun d => s.partOfDie d == fn

/-- The control-space offset of a register that function fn's BAR0 shows now: nothing before stage 5, the mailbox alone in stage 7,
one block for each die of the partition in ascending order (R346, R400; log 40). -/
def State.barOffset (s : State) (fn : Nat) (reg : BarReg) : Option Nat :=
  let dies := s.partDies fn
  let block (base i off : Nat) : Option Nat :=
    if s.cogor.stage = 7 ∨ 0x1000_0000 ≤ off then none else dies[i]?.map fun d => base + d * 0x1000_0000 + off
  if s.cogor.stage.toNat < 5 ∨ dies.isEmpty then none
  else match reg with
    | .block i off => block 0 i off
    | .memorySide i off => block 0x8_0000_0000 i off
    | .mailbox off => if off < 0x1_0000 then some (0xF_0000_0000 + off) else none

/-- A write of n bytes through BAR0: of other than 8 aligned bytes it has no effect, nor has one of SUSPEND, which needs a strand that
could suspend (R347, R377; log 40). -/
def State.barWrite (s : State) (fn : Nat) (reg : BarReg) (n : Nat) (v : Word) : State :=
  match s.barOffset fn reg with
  | some o => if n = 8 ∧ o % 8 = 0 then s.controlWrite true o v else s
  | none => s

/-- REGISTER_WRITE: the host writes through BAR0; the register acts by its access codes (R7, R346, R347). -/
def execRegisterWrite (x : BarAccess) (v : Word) (s : State) : Host.Outcome State Fault Refusal :=
  .next (s.barWrite x.fn x.reg x.size v)

/-- A read through BAR0 answered: 8 aligned bytes, or 4, which are the addressed half of the register. Of a read of another size
the manual states no value; what BAR0 does not show is an unsupported request (R345, R347; log 40). -/
def State.barRead (s : State) (fn : Nat) (reg : BarReg) (n : Nat) : State :=
  match s.barOffset fn reg with
  | none => s.reply .unsupported
  | some o =>
    let r := s.controlRead (o - o % 8)
    if n = 8 ∧ o % 8 = 0 then r.2.reply (.value r.1)
    else if n = 4 ∧ o % 4 = 0 then r.2.reply (.value (at_ (field r.1 (8 * (o % 8)) 32) 0))
    else s.free.2.reply (.value s.free.1)

/-- Whether the module supports a feature (R345). -/
def CxlFeature.supported : CxlFeature → Bool
  | .io | .cache | .mem | .flit256 | .hdmDb | .portRouting | .attestation => true
  | .flit68 | .latencyOptimised | .type3 | .multiLogical | .dynamicCapacity | .globalFabric | .ide | .hdmH | .hdmD
  | .unlisted _ => false

/-- A request from outside answered: a register read; a capability structure, which reports what is supported and nothing else; a
request that needs an absent feature, which is unsupported and has no effect (R345, R400). A request that needs a supported one is
one of the other events. -/
def State.serve (s : State) : Request → State
  | .barRead fn reg n => s.barRead fn reg n
  | .capability f => s.reply (if s.cogor.stage.toNat < 5 then .retry else .value (if f.supported then 1 else 0))
  | .feature f => if f.supported then s else s.reply .unsupported

/-- DOMID: the host writes the domain number, which opens the peer windows (R398). A copy, a translation or a reservation
made before stays as it was made. -/
def execDomid (v : BitVec 6) (s : State) : Host.Outcome State Fault Refusal :=
  .next (s.mapCogor fun c => { c with domid := some v })

/-- CXL_CONFIG_READ: before stage 5 it completes with Configuration Retry Status (R400). Afterwards it gives what the
configuration space holds at an offset of the module's CXL DVSEC: the domain number in bits [5:0] at offset 0x10, 0 before it is
written (log 5); for every other bit, which the manual leaves to PCIe and CXL, a free value (R345, R398; log 41). -/
def execCxlConfigRead (off : Nat) (s : State) : Host.Outcome State Fault Refusal :=
  .next (if s.cogor.stage.toNat < 5 then s.reply .retry
    else s.free.2.reply (.value (if off = 0x10 then setField s.free.1 0 6 (s.cogor.domid.getD 0).toNat else s.free.1)))

end Sys2Proof.Machine
end

