-- ==== Sys2Proof/Machine/Cxl.lean ====
section
/-!
DEFINITION. Requests over CXL: reads and writes of module memory by the host and by peers (R51, R292, R388, R391, R409), and
the snoops in both directions (R391, R392).
-/

namespace Sys2Proof.Machine

/-- Whether the n bytes at pa lie in one 64-byte half, the unit of CXL (R390). -/
def oneHalf (pa n : Nat) : Bool := decide (1 ≤ n) && decide (pa / 64 = (pa + n - 1) / 64)

/-- Whether a physical address lies in HBM or Cellar, the ranges that CXL reaches (R51). -/
def cxlRange (pa : Nat) : Bool := memoryLine (lineOf pa)

/-- Whether a physical address lies in the dump region (R409). -/
def inDump (pa : Nat) : Bool := decide (dumpBase ≤ pa) && decide (pa < 0xC0_0000_0000)

/-- Whether the module serves a read or a write over CXL.mem: from stage 5 on, of HBM and Cellar, and of the dump region reads only;
after a fatal error, reads of the dump region (R400, R408, R409; log 81). -/
def State.cxlServes (s : State) (pa : Nat) (write : Bool) : Bool :=
  (s.diesRun && cxlRange pa && !(write && inDump pa)) || (s.cogor.stage == 7 && s.cogor.fatal && !write && inDump pa)

/-- The context of a request by a party outside the module. -/
def outsideCtx (r : Requester) (pa : Nat) (k : CxlKind) : Ctx :=
  { tile := 0, root := 0, asid := 0, sup := true, party := none, bind := 0, who := .outside r pa k }

/-- Whether a request counts as a write where it meets a reservation or a held half: an exclusive read does (R391; log 44). -/
def CxlKind.writes : CxlKind → Bool
  | .read _ keep => keep == .e
  | .write _ => true
  | .snoop inv => inv

/-- The back-invalidates that a request of r over CXL to a line homed here needs before it is performed: of a half that another agent
has exclusive, and for a write or an exclusive request also of one that others share (R292, R391). -/
def State.agentSnoops (s : State) (r : Requester) (key : Nat) (write : Bool) : List (Nat × Bool) :=
  let h := halfOf key
  if !homedHere key || s.holders h == [r] then []
  else if s.halfState h = .e ∨ (write ∧ s.halfState h = .s) then [(h, write)] else []

/-- What a request of r over CXL to a line comes to before it is performed: refused by a reservation with policy trap, and counted;
held by one of another policy, or by a half that another agent holds; or free to go on (R223, R292, R391). A held request that comes
again, equal in all, is the same one (log 120). -/
def State.cxlAdmit (s : State) (r : Requester) (key : Nat) (k : CxlKind) : Res Bool :=
  let c := outsideCtx r key k
  let write := k.writes
  match s.meets 0 key write with
  | some e =>
    if e.policy = 2 then .ok false (s.count (trackDie key) .rsvrefuse)
    else .wait (if e.policy = 1 then s.query c e.bind (lineOf key) (trackDie key) else s)
  | none =>
    if s.engineHolds 0 key then .wait s
    else match s.agentSnoops r key write with
      | [] => .ok true (s.answered c key)
      | l => .wait (s.sendSnoops l)

/-- The module's part of a line after a request from outside: a module O copy is recalled; a shared request leaves S, an
exclusive one I (R391). -/
def State.recall (s : State) (key : Nat) (exclusive : Bool) : State :=
  let d := s.dirLine (lineOf key)
  let d' := if exclusive then d.clear else d.shared
  if d' = d then s else { s with dir := s.dir.put (lineOf key) d' }

/-- The state once r holds half h, alone or with others (R390). -/
def State.grantHalf (s : State) (r : Requester) (h : Nat) (keep : Half) : State :=
  let l := (s.holders h).erase r
  (s.setHalf h keep).setHolders h (if keep = .e then [r] else l ++ [r])

/-- CXL_MEM_READ: n bytes of one half of HBM or Cellar, with the poison indication; the requester then holds the copy that
keep says. Elsewhere, and while the module does not serve it, it completes with an error response (R51, R292, R388, R391,
R408, R409). An exclusive request counts as a write where it meets a reservation (log 44). -/
def execCxlMemRead (r : Requester) (pa n : Nat) (keep : Half) (s : State) : Host.Outcome State Fault Refusal :=
  if !oneHalf pa n then .next s
  else if !s.cxlServes pa false then .next (s.reply .error)
  else match s.cxlAdmit r pa (.read n keep) with
    | .ok false s => .next (s.reply .error)
    | .ok true s =>
      let data : Answer := .data (memGetBytes s.mem pa n) (s.isPoisoned pa 1)
      let s := s.recall pa (keep == .e)
      .next ((if keep = .n then s else s.grantHalf r (halfOf pa) keep).reply data)
    | .trap _ s => .next s
    | .wait s => .next s

/-- Data from outside stored at its home: the poison that comes with it marks the half and is counted, and what was poisoned stays
so (R388, R412). -/
def State.cxlStore (s : State) (pa : Nat) (bytes : List Byte) (poison : Bool) : State :=
  let s := s.store none pa bytes
  if poison then (s.addPoison (halfOf pa)).count (homeDie pa) .uecc else s

/-- CXL_MEM_WRITE: bytes within one half of HBM or Cellar, performed at the home; no module copy stays, and the write triggers. To
the dump region, elsewhere, and while the module does not serve it, it completes with an error response and has no effect (R27,
R51, R292, R388, R391, R409). -/
def execCxlMemWrite (r : Requester) (pa : Nat) (bytes : List Byte) (poison : Bool) (s : State) :
    Host.Outcome State Fault Refusal :=
  if !oneHalf pa bytes.length then .next s
  else if !s.cxlServes pa true then .next (s.reply .error)
  else match s.cxlAdmit r pa (.write bytes.length) with
    | .ok false s => .next (s.reply .error)
    | .ok true s => .next (((s.recall pa true).cxlStore pa bytes poison).reply .done)
    | .trap _ s => .next s
    | .wait s => .next s

/-- The stored address of a line that is homed outside the module, and its home; none for other addresses (R392). -/
def State.outsideKey (s : State) (pa : Nat) : Option (Nat × Requester) :=
  match s.resolveAlias (placeOf 0 pa) with
  | .peer m o => some ((Place.peer m o).key, .peer m)
  | .host a => some (a, .host)
  | _ => none

/-- The halves of a line that the module has modified, with their bytes and their poison, as a snoop is answered with them (R392). -/
def State.dirtyHalves (s : State) (key : Nat) : List (Nat × List Byte × Bool) :=
  let d := s.dirLine (lineOf key)
  let half (h : Nat) : Nat × List Byte × Bool := (64 * h, memGetBytes s.mem (64 * h) 64, s.poison.contains h)
  (if d.dlo then [half (2 * lineOf key)] else []) ++ (if d.dhi then [half (2 * lineOf key + 1)] else [])

/-- The state after a snoop has taken a half: every module cache loses the whole line, or keeps it read-only; nothing stays modified,
and the bridge holds no copy of the half, or a read-only one (R392). -/
def State.snooped (s : State) (key : Nat) (inv : Bool) : State :=
  let d := s.dirLine (lineOf key)
  let d' := { (if inv then d.clear else d.shared) with dlo := false, dhi := false }
  let s := if d' = d then s else { s with dir := s.dir.put (lineOf key) d' }
  s.setHalf (halfOf key) (if inv || decide (s.halfState (halfOf key) = Half.n) then .n else .s)

/-- CXL_SNOOP: the home of a host or peer line snoops a half, and is answered with what the module has modified of the line. With inv
the data is what the home then writes there, with its poison. As a request to the line it meets reservations
(R223, R292, R391, R392); a halted module answers with an error response (R408). -/
def execCxlSnoop (pa : Nat) (inv : Bool) (data : Payload) (s : State) : Host.Outcome State Fault Refusal :=
  match s.outsideKey pa with
  | none => .next s
  | some (key, r) =>
    if s.cogor.stage = 7 then .next (s.reply .error)
    else match s.cxlAdmit r key (.snoop inv) with
      | .ok false s => .next (s.reply .error)
      | .ok true s =>
        let answer : Answer := .halves (s.dirtyHalves key)
        let s := s.snooped key inv
        let s := if inv && oneHalf key data.bytes.length then s.storeRaw none key data.bytes else s
        .next ((if inv && data.poison then s.addPoison (halfOf key) else s).reply answer)
      | .trap _ s => .next s
      | .wait s => .next s

/-- The prefetches whose back-invalidates have all been answered bring their lines; one that meets a reservation or poison by then is
dropped (R138, R391). -/
def State.fillWanted (s : State) : State :=
  let ready (w : Nat × Nat × Bool) : Bool := (if w.2.2 then s.heldHalves w.2.1 else s.snoopsFor w.2.1 false).isEmpty
  let fills (w : Nat × Nat × Bool) : Bool :=
    !s.isPoisoned w.2.1 1 && (s.meets 0 w.2.1 w.2.2).isNone && !s.engineHolds 0 w.2.1
  let s' := { s with wanted := s.wanted.filter fun w => !ready w }
  ((s.wanted.filter ready).filter fills).foldl (fun s w => s.fill (.l1d w.1) w.2.1 w.2.2) s'

/-- BISNP_COMPLETE: the holder of a half answers a back-invalidate. It keeps no copy, or a read-only one, and what it had modified is
stored at the home, as data that came over CXL; then the prefetches that waited for it go on (R27, R138, R388, R391). No write is
performed in a module that an alarm has halted (R408). -/
def execBisnpComplete (pa : Nat) (inv : Bool) (data : Payload) (s : State) : Host.Outcome State Fault Refusal :=
  let h := halfOf pa
  if !s.snoops.contains (h, inv) || s.alarmed then .next s
  else
    let dirty := s.halfState h == .e && oneHalf pa data.bytes.length
    let gone := inv || decide (s.halfState h = Half.n)
    let s := { s with snoops := s.snoops.erase (h, inv) }.setHalf h (if gone then .n else .s)
    let s := if gone then s.setHolders h [] else s
    .next (if dirty then s.cxlStore pa data.bytes data.poison else s).fillWanted

end Sys2Proof.Machine
end

