-- ==== Sys2Proof/Machine/Fetch.lean ====
section
/-!
DEFINITION. Time, instruction fetch and the two traps of a word that does not reach its instruction (R109, R110, R133).
-/

namespace Sys2Proof.Machine

/-- A dump whose writing has taken its time is completed, and then the activation that waits for it is made (R410, R419). -/
def State.dumpDone (s : State) : State :=
  match s.cogor.dumping with
  | some t =>
    if t + Config.dumpNanos ≤ s.clock then
      let s := s.finishDump
      match s.cogor.activating with
      | some n => s.activate n
      | none => s
    else s
  | none => s

/-- dt nanoseconds pass: the reference clock and each die's cycle counter, at its governor's frequency (R234, R413;
log 2); a dump goes on, and what waits in the queues ages (R356). -/
def State.advance (s : State) (dt : Nat) : State :=
  State.aged (State.dumpDone
    { s with clock := s.clock + dt,
             dies := Vector.ofFn fun d => { s.dies[d] with cycles := s.dies[d].cycles + dt * s.mdies[d].freq.toNat } })

/-- The nanoseconds until the next cycle of strand k's die begins. -/
def State.toNextCycle (s : State) (k : Nat) : Nat :=
  let f := (s.mdie (dieOfStrand k)).freq.toNat
  (1000 - (s.die (dieOfStrand k)).cycles % 1000 + f - 1) / f

/-- The state in which the strand whose turn it is issues: in the next cycle if it may not issue in this one (R20). -/
def State.issueSlot (s : State) : State :=
  let s := if mayIssue s.issuedNow s.cur then s else s.advance (s.toNextCycle s.cur)
  { s with issued := (s.cur, s.cyclesOf s.cur) :: s.issued.filter fun e => e.2 == s.cyclesOf e.1 }

/-- Whether an event still happens in a module that is halted (STAGE 7): resets, and what reaches Cogor through its
mailbox, the configuration space, the DOE mailbox and PLDM; requests over CXL are answered, most with errors; a further alarm or
fatal error is noted (R400, R404, R408, R410, R419). -/
def runsHalted (i : Instr) : Bool :=
  match i with
  | .coldReset | .moduleReset _ | .dumpclr _ | .retireTile _ | .retireDone | .partcfg _ | .securityAlarm _
  | .fatalError _ _ | .watchdogExpire _ | .getVersion | .getCapabilities | .negotiateAlgorithms | .getDigests
  | .getCertificate | .challenge _ | .getMeasurements _ _ | .transferImage _ | .verifyImage | .activateFirmware _
  | .cxlMemRead _ _ _ _ | .cxlMemWrite _ _ _ _ | .cxlSnoop _ _ _ | .bisnpComplete _ _ _ | .cxlConfigRead _ | .domid _
  | .registerWrite _ _ => true
  | _ => false

/-- Whether the schedule's event i happens now. -/
def State.eventRuns (s : State) (i : Instr) : Bool := s.cogor.stage != 7 || runsHalted i

/-- The directory's record of a fetch: the tile's L1I is a sharer of its own (R59, R390). -/
def State.recordFetch (s : State) (c : Ctx) (p : Place) (uncached : Bool) : State :=
  if !p.coherent then s
  else if uncached then s.atHome p.key false
  else s.fill (.l1i c.tile) p.key false

/-- The word at the issuing strand's pc, or the trap of its fetch (R110, R133). A fetch never meets a range reservation
(R287). Of a word in a poisoned half the manual states no value: it is a free value (log 17). A read whose response is lost gives no
word: Remote Timeout is deferred, to be taken before the instruction (R172, R389; log 110). -/
def State.fetch (s : State) : Res IWord :=
  let c := { s.ctx with who := .fetch s.cur }
  let va := s.me.pc
  match s.translate c va .fetch with
  | (.fail cause, s) => .trap (Trap.sync cause va) s
  | (.hold, s) => .wait s
  | (.ok pa unc _, s) =>
    let p := s.resolveAlias (placeOf c.tile pa)
    if !s.mayReach c.tile p then .trap (Trap.sync 0x07 va) s
    else match if p.coherent then s.snoopsFor p.key false else [] with
      | x :: l => .wait (s.sendSnoops (x :: l))
      | [] => (s.awaitLost s.cur c.who (p.leaves c.tile)).bind fun _ s =>
        if p.leaves c.tile && (s.lostFor s.cur c.who).isSome then .wait (s.timeOut s.cur va)
        else if s.isPoisoned p.key 4 then .ok (lo32 s.free.1) (s.free.2.poisonArrives p.key)
        else .ok (BitVec.ofNat 32 (s.load p.key 4)) (s.recordFetch c p unc)

/-- FETCH_PAGE_FAULT: the fetch at the pc of the issuing strand takes its trap (R110, R133). -/
def execFetchPageFault (s : State) : Host.Outcome State Fault Refusal :=
  match s.fetch with
  | .trap t s => .next (s.enterTrap t)
  | _ => .next s

/-- ILLEGAL_INSTRUCTION: the word w, with EPC at it and w in the address field (R109). -/
def execIllegalInstruction (w : IWord) (s : State) : Host.Outcome State Fault Refusal :=
  .next (s.enterTrap (Trap.sync 0x01 (zext w)))

end Sys2Proof.Machine
end

