-- ==== Sys2Proof/Machine/Integer.lean ====
section
/-!
DEFINITION. The integer instructions of majors 0x01 to 0x0D: R116 to R125.
-/

namespace Sys2Proof.Machine

/-! ## Values -/

/-- SignExtend(x[31:0], 32) (R118). -/
def sext32 (x : Word) : Word := (lo32 x).signExtend 64

/-- A shift amount of a 64-bit shift: g_b[5:0] (R118). -/
def sh6 (x : Word) : Nat := field x 0 6

/-- A shift amount of a 32-bit shift: g_b[4:0] (R118). -/
def sh5 (x : Word) : Nat := field x 0 5

/-- The exact signed result of R119, if it fits 64 bits. -/
def fits64 (x : Int) : Option Word := if -(2 ^ 63) ≤ x ∧ x < 2 ^ 63 then some (BitVec.ofInt 64 x) else none

/-- The quotient of R123 for w-bit operands; none for a zero divisor. -/
def quotient {w : Nat} (signed : Bool) (a b : BitVec w) : Option (BitVec w) :=
  if b = 0 then none else some (if signed then BitVec.ofInt w (a.toInt.tdiv b.toInt) else BitVec.ofNat w (a.toNat / b.toNat))

/-- The remainder of R123 for w-bit operands; none for a zero divisor. -/
def remainder {w : Nat} (signed : Bool) (a b : BitVec w) : Option (BitVec w) :=
  if b = 0 then none else some (if signed then BitVec.ofInt w (a.toInt.tmod b.toInt) else BitVec.ofNat w (a.toNat % b.toNat))

/-- The position of a bit field: g_b[5:0] (R125). -/
def fieldPos (b : Word) : Nat := field b 0 6

/-- The length W of a bit field: g_b[13:8], 0 meaning 64, cut short at bit 63 (R125). -/
def fieldLen (b : Word) : Nat := min (if field b 8 6 = 0 then 64 else field b 8 6) (64 - fieldPos b)

/-- EXTU of R125. -/
def extractU (a b : Word) : Word := BitVec.ofNat 64 (field a (fieldPos b) (fieldLen b))

/-- EXT of R125: the field read as signed. -/
def extractS (a b : Word) : Word :=
  let v := field a (fieldPos b) (fieldLen b)
  BitVec.ofInt 64 (if v.testBit (fieldLen b - 1) then (v : Int) - 2 ^ fieldLen b else v)

/-- INS of R125: the field of d replaced by the low bits of a. -/
def insertField (d a b : Word) : Word := setField d (fieldPos b) (fieldLen b) a.toNat

/-- The Integer Arithmetic trap of R119 and R123. -/
def intTrap : Trap := Trap.sync 0x0A 0

/-! ## Major 0x01 (R118, R119) -/

/-- ADD: g_d := g_a + g_b (R118). -/
def execAdd (d a b : Reg) (s : State) : Host.Outcome State Fault Refusal := s.binary d a b fun x y => x + y

/-- SUB: g_d := g_a − g_b (R118). -/
def execSub (d a b : Reg) (s : State) : Host.Outcome State Fault Refusal := s.binary d a b fun x y => x - y

/-- AND: g_d := g_a AND g_b (R118). -/
def execAnd (d a b : Reg) (s : State) : Host.Outcome State Fault Refusal := s.binary d a b fun x y => x &&& y

/-- OR: g_d := g_a OR g_b (R118). -/
def execOr (d a b : Reg) (s : State) : Host.Outcome State Fault Refusal := s.binary d a b fun x y => x ||| y

/-- XOR: g_d := g_a XOR g_b (R118). -/
def execXor (d a b : Reg) (s : State) : Host.Outcome State Fault Refusal := s.binary d a b fun x y => x ^^^ y

/-- NOR: g_d := NOT (g_a OR g_b) (R118). -/
def execNor (d a b : Reg) (s : State) : Host.Outcome State Fault Refusal := s.binary d a b fun x y => ~~~(x ||| y)

/-- ANDN: g_d := g_a AND NOT g_b (R118). -/
def execAndn (d a b : Reg) (s : State) : Host.Outcome State Fault Refusal := s.binary d a b fun x y => x &&& ~~~y

/-- ORN: g_d := g_a OR NOT g_b (R118). -/
def execOrn (d a b : Reg) (s : State) : Host.Outcome State Fault Refusal := s.binary d a b fun x y => x ||| ~~~y

/-- SLL: g_d := g_a << g_b[5:0] (R118). -/
def execSll (d a b : Reg) (s : State) : Host.Outcome State Fault Refusal := s.binary d a b fun x y => x <<< sh6 y

/-- SRL: g_d := g_a >> g_b[5:0], zeros shifted in (R118). -/
def execSrl (d a b : Reg) (s : State) : Host.Outcome State Fault Refusal := s.binary d a b fun x y => x >>> sh6 y

/-- SRA: g_d := g_a >> g_b[5:0], copies of bit 63 shifted in (R118). -/
def execSra (d a b : Reg) (s : State) : Host.Outcome State Fault Refusal := s.binary d a b fun x y => x.sshiftRight (sh6 y)

/-- ROR: g_d := g_a rotated right by g_b[5:0] (R118). -/
def execRor (d a b : Reg) (s : State) : Host.Outcome State Fault Refusal := s.binary d a b fun x y => x.rotateRight (sh6 y)

/-- SETLT: g_d := 1 if g_a < g_b as signed, else 0 (R118). -/
def execSetlt (d a b : Reg) (s : State) : Host.Outcome State Fault Refusal := s.binary d a b fun x y => ofBool (x.slt y)

/-- SETLTN: g_d := 1 if g_a < g_b as unsigned, else 0 (R118). -/
def execSetltn (d a b : Reg) (s : State) : Host.Outcome State Fault Refusal := s.binary d a b fun x y => ofBool (x.ult y)

/-- SETEQ: g_d := 1 if g_a = g_b, else 0 (R118). -/
def execSeteq (d a b : Reg) (s : State) : Host.Outcome State Fault Refusal := s.binary d a b fun x y => ofBool (x == y)

/-- SETNE: g_d := 1 if g_a ≠ g_b, else 0 (R118). -/
def execSetne (d a b : Reg) (s : State) : Host.Outcome State Fault Refusal := s.binary d a b fun x y => ofBool (x != y)

/-- MIN: g_d := the smaller as signed (R118). -/
def execMin (d a b : Reg) (s : State) : Host.Outcome State Fault Refusal := s.binary d a b fun x y => if y.slt x then y else x

/-- MAX: g_d := the larger as signed (R118). -/
def execMax (d a b : Reg) (s : State) : Host.Outcome State Fault Refusal := s.binary d a b fun x y => if x.slt y then y else x

/-- MINU: g_d := the smaller as unsigned (R118). -/
def execMinu (d a b : Reg) (s : State) : Host.Outcome State Fault Refusal := s.binary d a b fun x y => if y.ult x then y else x

/-- MAXU: g_d := the larger as unsigned (R118). -/
def execMaxu (d a b : Reg) (s : State) : Host.Outcome State Fault Refusal := s.binary d a b fun x y => if x.ult y then y else x

/-- ADD32: g_d := SignExtend((g_a + g_b)[31:0], 32) (R118). -/
def execAdd32 (d a b : Reg) (s : State) : Host.Outcome State Fault Refusal := s.binary d a b fun x y => sext32 (x + y)

/-- SUB32: g_d := SignExtend((g_a − g_b)[31:0], 32) (R118). -/
def execSub32 (d a b : Reg) (s : State) : Host.Outcome State Fault Refusal := s.binary d a b fun x y => sext32 (x - y)

/-- SLL32: g_d := SignExtend((g_a[31:0] << g_b[4:0])[31:0], 32) (R118). -/
def execSll32 (d a b : Reg) (s : State) : Host.Outcome State Fault Refusal := s.binary d a b fun x y => sext (lo32 x <<< sh5 y)

/-- SRL32: g_d := SignExtend(g_a[31:0] >> g_b[4:0], 32), zeros shifted in at bit 31 (R118). -/
def execSrl32 (d a b : Reg) (s : State) : Host.Outcome State Fault Refusal := s.binary d a b fun x y => sext (lo32 x >>> sh5 y)

/-- SRA32: g_d := SignExtend(SignExtend(g_a[31:0], 32) >> g_b[4:0], 32) (R118). -/
def execSra32 (d a b : Reg) (s : State) : Host.Outcome State Fault Refusal := s.binary d a b fun x y => sext ((lo32 x).sshiftRight (sh5 y))

/-- ADDO: g_a + g_b, or Integer Arithmetic when the exact result does not fit (R118, R119). -/
def execAddo (d a b : Reg) (s : State) : Host.Outcome State Fault Refusal :=
  s.orTrap d (fits64 ((s.readG a).toInt + (s.readG b).toInt)) intTrap

/-- SUBO: g_a − g_b, or Integer Arithmetic when the exact result does not fit (R118, R119). -/
def execSubo (d a b : Reg) (s : State) : Host.Outcome State Fault Refusal :=
  s.orTrap d (fits64 ((s.readG a).toInt - (s.readG b).toInt)) intTrap

/-- ADDSC1: g_d := (g_a << 1) + g_b (R118). -/
def execAddsc1 (d a b : Reg) (s : State) : Host.Outcome State Fault Refusal := s.binary d a b fun x y => (x <<< 1) + y

/-- ADDSC2: g_d := (g_a << 2) + g_b (R118). -/
def execAddsc2 (d a b : Reg) (s : State) : Host.Outcome State Fault Refusal := s.binary d a b fun x y => (x <<< 2) + y

/-- ADDSC3: g_d := (g_a << 3) + g_b (R118). -/
def execAddsc3 (d a b : Reg) (s : State) : Host.Outcome State Fault Refusal := s.binary d a b fun x y => (x <<< 3) + y

/-! ## Major 0x02 (R122, R123) -/

/-- MUL: g_d := (g_a × g_b)[63:0] (R122). -/
def execMul (d a b : Reg) (s : State) : Host.Outcome State Fault Refusal := s.binary d a b fun x y => x * y

/-- MULHS: g_d := bits [127:64] of the signed product (R122). -/
def execMulhs (d a b : Reg) (s : State) : Host.Outcome State Fault Refusal := s.binary d a b fun x y => BitVec.ofInt 64 (x.toInt * y.toInt / 2 ^ 64)

/-- MULHN: g_d := bits [127:64] of the unsigned product (R122). -/
def execMulhn (d a b : Reg) (s : State) : Host.Outcome State Fault Refusal := s.binary d a b fun x y => BitVec.ofNat 64 (x.toNat * y.toNat / 2 ^ 64)

/-- MULHSN: g_d := bits [127:64] of the product, g_a signed and g_b unsigned (R122). -/
def execMulhsn (d a b : Reg) (s : State) : Host.Outcome State Fault Refusal := s.binary d a b fun x y => BitVec.ofInt 64 (x.toInt * (y.toNat : Int) / 2 ^ 64)

/-- MUL32: g_d := SignExtend((g_a[31:0] × g_b[31:0])[31:0], 32) (R122). -/
def execMul32 (d a b : Reg) (s : State) : Host.Outcome State Fault Refusal := s.binary d a b fun x y => sext (lo32 x * lo32 y)

/-- DIVS: the signed quotient, or Integer Arithmetic for a zero divisor (R122, R123). -/
def execDivs (d a b : Reg) (s : State) : Host.Outcome State Fault Refusal :=
  s.orTrap d (quotient true (s.readG a) (s.readG b)) intTrap

/-- DIVN: the unsigned quotient, or Integer Arithmetic for a zero divisor (R122, R123). -/
def execDivn (d a b : Reg) (s : State) : Host.Outcome State Fault Refusal :=
  s.orTrap d (quotient false (s.readG a) (s.readG b)) intTrap

/-- REMS: the signed remainder, or Integer Arithmetic for a zero divisor (R122, R123). -/
def execRems (d a b : Reg) (s : State) : Host.Outcome State Fault Refusal :=
  s.orTrap d (remainder true (s.readG a) (s.readG b)) intTrap

/-- REMN: the unsigned remainder, or Integer Arithmetic for a zero divisor (R122, R123). -/
def execRemn (d a b : Reg) (s : State) : Host.Outcome State Fault Refusal :=
  s.orTrap d (remainder false (s.readG a) (s.readG b)) intTrap

/-- DIVS32: the signed quotient of the low 32 bits, sign-extended from bit 31, or Integer Arithmetic for a zero divisor (R122,
R123). -/
def execDivs32 (d a b : Reg) (s : State) : Host.Outcome State Fault Refusal :=
  s.orTrap d ((quotient true (lo32 (s.readG a)) (lo32 (s.readG b))).map sext) intTrap

/-- DIVN32: the unsigned quotient of the low 32 bits, sign-extended from bit 31, or Integer Arithmetic for a zero divisor (R122,
R123). -/
def execDivn32 (d a b : Reg) (s : State) : Host.Outcome State Fault Refusal :=
  s.orTrap d ((quotient false (lo32 (s.readG a)) (lo32 (s.readG b))).map sext) intTrap

/-- REMS32: the signed remainder of the low 32 bits, sign-extended from bit 31, or Integer Arithmetic for a zero divisor (R122,
R123). -/
def execRems32 (d a b : Reg) (s : State) : Host.Outcome State Fault Refusal :=
  s.orTrap d ((remainder true (lo32 (s.readG a)) (lo32 (s.readG b))).map sext) intTrap

/-- REMN32: the unsigned remainder of the low 32 bits, sign-extended from bit 31, or Integer Arithmetic for a zero divisor (R122,
R123). -/
def execRemn32 (d a b : Reg) (s : State) : Host.Outcome State Fault Refusal :=
  s.orTrap d ((remainder false (lo32 (s.readG a)) (lo32 (s.readG b))).map sext) intTrap

/-! ## Major 0x03 (R124, R125) -/

/-- CLZ: g_d := the number of leading zero bits; 64 for zero (R124). -/
def execClz (d a : Reg) (s : State) : Host.Outcome State Fault Refusal := s.unary d a fun x => BitVec.ofNat 64 (leadingZeros 64 x.toNat)

/-- CTZ: g_d := the number of trailing zero bits; 64 for zero (R124). -/
def execCtz (d a : Reg) (s : State) : Host.Outcome State Fault Refusal := s.unary d a fun x => BitVec.ofNat 64 (trailingZeros 64 x.toNat)

/-- POPC: g_d := the number of one bits (R124). -/
def execPopc (d a : Reg) (s : State) : Host.Outcome State Fault Refusal := s.unary d a fun x => BitVec.ofNat 64 (popCount 64 x.toNat)

/-- BREV: g_d := g_a with bit i moved to bit 63 − i (R124). -/
def execBrev (d a : Reg) (s : State) : Host.Outcome State Fault Refusal := s.unary d a fun x => BitVec.ofNat 64 (reverseBits 64 x.toNat)

/-- BSWAP: g_d := g_a with byte i moved to byte 7 − i (R124). -/
def execBswap (d a : Reg) (s : State) : Host.Outcome State Fault Refusal := s.unary d a fun x => BitVec.ofNat 64 (leNat (leBytes 8 x.toNat).reverse)

/-- EXT: the field of g_a that g_b names (R125). -/
def execExtS (d a b : Reg) (s : State) : Host.Outcome State Fault Refusal := s.binary d a b extractS

/-- EXTU: the field of g_a that g_b names (R125). -/
def execExtU (d a b : Reg) (s : State) : Host.Outcome State Fault Refusal := s.binary d a b extractU

/-- INS: the field of g_d that g_b names replaced by the low bits of g_a (R125). -/
def execIns (d a b : Reg) (s : State) : Host.Outcome State Fault Refusal :=
  s.setNext d (insertField (s.readG d) (s.readG a) (s.readG b))

/-- CLZ32: g_d := the leading zeros of g_a[31:0]; 32 for zero (R124). -/
def execClz32 (d a : Reg) (s : State) : Host.Outcome State Fault Refusal := s.unary d a fun x => BitVec.ofNat 64 (leadingZeros 32 (lo32 x).toNat)

/-- CTZ32: g_d := the trailing zeros of g_a[31:0]; 32 for zero (R124). -/
def execCtz32 (d a : Reg) (s : State) : Host.Outcome State Fault Refusal := s.unary d a fun x => BitVec.ofNat 64 (trailingZeros 32 (lo32 x).toNat)

/-- POPC32: g_d := the one bits of g_a[31:0] (R124). -/
def execPopc32 (d a : Reg) (s : State) : Host.Outcome State Fault Refusal := s.unary d a fun x => BitVec.ofNat 64 (popCount 32 (lo32 x).toNat)

/-- BSWAP32: g_d := SignExtend of g_a[31:0] with its four bytes reversed (R124). -/
def execBswap32 (d a : Reg) (s : State) : Host.Outcome State Fault Refusal := s.unary d a fun x => sext (BitVec.ofNat 32 (leNat (leBytes 4 (lo32 x).toNat).reverse))

/-! ## Majors 0x04 to 0x0D (R120, R121) -/

/-- ADDI: g_d := g_a + simm (R120). -/
def execAddi (d a : Reg) (imm : BitVec 16) (s : State) : Host.Outcome State Fault Refusal := s.unary d a fun x => x + simm imm

/-- ANDI: g_d := g_a AND zimm (R120). -/
def execAndi (d a : Reg) (imm : BitVec 16) (s : State) : Host.Outcome State Fault Refusal := s.unary d a fun x => x &&& zimm imm

/-- ORI: g_d := g_a OR zimm (R120). -/
def execOri (d a : Reg) (imm : BitVec 16) (s : State) : Host.Outcome State Fault Refusal := s.unary d a fun x => x ||| zimm imm

/-- XORI: g_d := g_a XOR zimm (R120). -/
def execXori (d a : Reg) (imm : BitVec 16) (s : State) : Host.Outcome State Fault Refusal := s.unary d a fun x => x ^^^ zimm imm

/-- SETLTI: g_d := 1 if g_a < simm as signed, else 0 (R120). -/
def execSetlti (d a : Reg) (imm : BitVec 16) (s : State) : Host.Outcome State Fault Refusal := s.unary d a fun x => ofBool (x.slt (simm imm))

/-- SETLTNI: g_d := 1 if g_a < (simm mod 2^64) as unsigned, else 0 (R120). -/
def execSetltni (d a : Reg) (imm : BitVec 16) (s : State) : Host.Outcome State Fault Refusal := s.unary d a fun x => ofBool (x.ult (simm imm))

/-- SLLI: g_d := g_a << n (R121). -/
def execSlli (d a : Reg) (n : BitVec 6) (s : State) : Host.Outcome State Fault Refusal := s.unary d a fun x => x <<< n.toNat

/-- SRLI: g_d := g_a >> n, zeros shifted in (R121). -/
def execSrli (d a : Reg) (n : BitVec 6) (s : State) : Host.Outcome State Fault Refusal := s.unary d a fun x => x >>> n.toNat

/-- SRAI: g_d := g_a >> n, copies of bit 63 shifted in (R121). -/
def execSrai (d a : Reg) (n : BitVec 6) (s : State) : Host.Outcome State Fault Refusal := s.unary d a fun x => x.sshiftRight n.toNat

/-- RORI: g_d := g_a rotated right by n (R121). -/
def execRori (d a : Reg) (n : BitVec 6) (s : State) : Host.Outcome State Fault Refusal := s.unary d a fun x => x.rotateRight n.toNat

/-- LUI: g_d := simm << 16 (R120). -/
def execLui (d : Reg) (imm : BitVec 16) (s : State) : Host.Outcome State Fault Refusal := s.setNext d (simm imm <<< 16)

/-- ADDPC: g_d := PC + (simm << 16), PC being the address of the ADDPC (R120). -/
def execAddpc (d : Reg) (imm : BitVec 16) (s : State) : Host.Outcome State Fault Refusal :=
  s.setNext d (s.me.pc + (simm imm <<< 16))

/-- SHORI: g_d := (g_a << 16) OR zimm (R120). -/
def execShori (d a : Reg) (imm : BitVec 16) (s : State) : Host.Outcome State Fault Refusal := s.unary d a fun x => (x <<< 16) ||| zimm imm

end Sys2Proof.Machine
end

