-- ==== Sys2Proof/Machine/LoadStore.lean ====
section
/-!
DEFINITION. Scalar loads, stores and prefetches, majors 0x18 to 0x1E: R134 to R138.
-/

namespace Sys2Proof.Machine

/-- An aligned doubleword read by the issuing strand: of memory, or of a register of the control space (R114, R347). -/
def State.loadDouble (s : State) (va : Word) : Res Word :=
  match s.controlAt s.ctx va .load with
  | some (o, _, s) => .ok (s.controlRead o).1 (s.controlRead o).2
  | none => (s.memRead s.ctx va 8).bind fun x s => .ok (BitVec.ofNat 64 x) s

/-- D set in the entry of a first store to the control space (R368). -/
def State.markDirty (s : State) (va : Word) : Option TlbEnt → Res Unit
  | some e => (s.dirtyReady s.ctx va e).bind fun _ s => .ok () (s.setDirty s.ctx e)
  | none => .ok () s

/-- An aligned doubleword written by the issuing strand, which then retires: to memory, or to a register of the control
space; a store to SUSPEND ends the handler's instructions (R114, R347, R378). -/
def State.storeDouble (s : State) (va v : Word) : Res Unit :=
  match s.controlAt s.ctx va .store with
  | some (o, mark, s) => (s.controlReady o v).bind fun _ s => (s.markDirty va mark).bind fun _ s =>
    if isSuspend o then s.suspendTo va v else (Res.ok () (s.controlWrite false o v)).retire
  | none => (s.memWrite s.ctx va 8 v.toNat).retire

/-- The n low bytes of a register stored, and the instruction retired. -/
def State.storeNarrow (s : State) (va : Word) (n : Nat) (v : Word) : Res Unit :=
  (s.memWrite s.ctx va n (v.toNat % 256 ^ n)).retire

/-- n bytes loaded, extended by f, into g register d, and the instruction retired. -/
def State.loadNarrow (s : State) (d : Reg) (va : Word) (n : Nat) (f : Nat → Word) : Res Unit :=
  (s.memRead s.ctx va n).bind fun x s => .ok () (s.writeRetire d (f x))

/-! ## Displacement forms (R134) -/

/-- LD. -/
def execLd (d a : Reg) (disp : BitVec 16) (s : State) : Host.Outcome State Fault Refusal :=
  ((s.loadDouble (s.dispAddr a disp)).bind fun v s => .ok () (s.writeRetire d v)).finish

/-- LW. -/
def execLw (d a : Reg) (disp : BitVec 16) (s : State) : Host.Outcome State Fault Refusal :=
  (s.loadNarrow d (s.dispAddr a disp) 4 fun x => sext (BitVec.ofNat 32 x)).finish

/-- LWU. -/
def execLwu (d a : Reg) (disp : BitVec 16) (s : State) : Host.Outcome State Fault Refusal :=
  (s.loadNarrow d (s.dispAddr a disp) 4 fun x => zext (BitVec.ofNat 32 x)).finish

/-- SD. -/
def execSd (d a : Reg) (disp : BitVec 16) (s : State) : Host.Outcome State Fault Refusal :=
  (s.storeDouble (s.dispAddr a disp) (s.readG d)).finish

/-- SW. -/
def execSw (d a : Reg) (disp : BitVec 16) (s : State) : Host.Outcome State Fault Refusal :=
  (s.storeNarrow (s.dispAddr a disp) 4 (s.readG d)).finish

/-! ## Indexed byte and half-word forms (R135) -/

/-- LB. -/
def execLb (d a b : Reg) (s : State) : Host.Outcome State Fault Refusal :=
  (s.loadNarrow d (s.indexAddr a b) 1 fun x => sext (BitVec.ofNat 8 x)).finish

/-- LBU. -/
def execLbu (d a b : Reg) (s : State) : Host.Outcome State Fault Refusal :=
  (s.loadNarrow d (s.indexAddr a b) 1 fun x => zext (BitVec.ofNat 8 x)).finish

/-- LH. -/
def execLh (d a b : Reg) (s : State) : Host.Outcome State Fault Refusal :=
  (s.loadNarrow d (s.indexAddr a b) 2 fun x => sext (BitVec.ofNat 16 x)).finish

/-- LHU. -/
def execLhu (d a b : Reg) (s : State) : Host.Outcome State Fault Refusal :=
  (s.loadNarrow d (s.indexAddr a b) 2 fun x => zext (BitVec.ofNat 16 x)).finish

/-- SB. -/
def execSb (d a b : Reg) (s : State) : Host.Outcome State Fault Refusal :=
  (s.storeNarrow (s.indexAddr a b) 1 (s.readG d)).finish

/-- SH. -/
def execSh (d a b : Reg) (s : State) : Host.Outcome State Fault Refusal :=
  (s.storeNarrow (s.indexAddr a b) 2 (s.readG d)).finish

/-! ## Prefetch (R138) -/

/-- The line that holds va brought into the L1D, as a sharer or as the owner; dropped where it would fault or wait for a walk,
meets a reservation, an engine command's among them, is uncached or names no line that the directories manage (R137, R138). Poison in
the half that holds va drops it, and poison in the other half does not (R388; log 114). Where a half is held outside, the
back-invalidates that the request needs are sent, and the line comes once they are answered (R391). PRF.RD is translated as a
load and PRF.WR as a store (log 95). -/
def State.prefetch (s : State) (va : Word) (write : Bool) : State :=
  let c := s.ctx
  match s.translate c va (if write then .store else .load) with
  | (.fail _, s) => s
  | (.hold, s) => s
  | (.ok pa unc _, s) =>
    let p := s.resolveAlias (placeOf c.tile pa)
    if unc || !p.coherent || !s.mayReach c.tile p || (s.meets c.bind p.key write).isSome || s.engineHolds c.bind p.key then s
    else if s.isPoisoned p.key 1 then s.poisonArrives p.key
    else match if write then s.heldHalves p.key else s.snoopsFor p.key false with
      | [] => s.fill (.l1d c.tile) p.key write
      | l =>
        let w := (c.tile, p.key, write)
        { s.sendSnoops l with wanted := if s.wanted.contains w then s.wanted else s.wanted ++ [w] }

/-- PRF.RD: as a sharer (R138). -/
def execPrfRd (a : Reg) (disp : BitVec 16) (s : State) : Host.Outcome State Fault Refusal :=
  .next (s.prefetch (s.dispAddr a disp) false).retire

/-- PRF.WR: as the owner (R138). -/
def execPrfWr (a : Reg) (disp : BitVec 16) (s : State) : Host.Outcome State Fault Refusal :=
  .next (s.prefetch (s.dispAddr a disp) true).retire

end Sys2Proof.Machine
end

