-- ==== Sys2Proof/Machine/VecMem.lean ====
section
/-!
DEFINITION. Vector memory instructions, majors 0x2C to 0x2F: R164 to R182. Each slot checks its elements in ascending
order and stops at its first failure; every element that passed its checks is performed (R169, R170).
-/

namespace Sys2Proof.Machine

/-! ## The slot engine (R169 to R173) -/

/-- The first element that begins in slot j, at width w. -/
def slotFirst (w j : Nat) : Nat := ceilDiv (2048 * j) w

/-- Where a slot has stopped: the element, and the trap of its failed check; none for an element that waits. -/
abbrev SlotStop := Option (Nat × Option Trap)

/-- The stops once an element waits: each slot that has not stopped stops at its first element from there on, so that no later
element of the instruction goes before an earlier one (R277, R290). -/
def stopRest (w : Nat) (es : List Nat) (st : Vector SlotStop 8) : Vector SlotStop 8 :=
  es.foldl (fun st e => if (st.getD (slotOf w e) none).isSome then st
    else st.setIfInBounds (slotOf w e) (some (e, none))) st

/-- Whether some slot has stopped at an element that waits. -/
def slotWaits (st : Vector SlotStop 8) : Bool :=
  st.toList.any fun x => match x with | some (_, none) => true | _ => false

/-- Whether a forced pre-emption is pending for the issuing strand. -/
def State.forced (s : State) : Bool := s.me.pend.preempt.any (·.2)

/-- The state in which the issuing strand's access has stopped at a range reservation, or has not (R173). -/
def State.setShut (s : State) (b : Bool) : State :=
  s.mapMe fun x => { x with part := x.part.map fun p => { p with shut := b } }

/-- The elements in ascending order, each checked and performed unless its slot has stopped; when one waits, nothing after it
is done. But where a forced pre-emption is pending and the wait is for a reservation, the instruction is stopped as under R170: the
other slots go on (R173). The stops, what was performed, in order, and the state. -/
def runElems {γ : Type} (w : Nat) (chk : Nat → State → Res γ) (prf : Nat → γ → State → State) :
    List Nat → Vector SlotStop 8 → State → Vector SlotStop 8 × List (Nat × γ) × State
  | [], st, s => (st, [], if slotWaits st then s.setShut true else s)
  | e :: es, st, s =>
    if (st.getD (slotOf w e) none).isSome then runElems w chk prf es st s
    else match chk e s with
      | .ok g s =>
        let r := runElems w chk prf es st (prf e g s)
        (r.1, (e, g) :: r.2.1, r.2.2)
      | .trap t s => runElems w chk prf es (st.setIfInBounds (slotOf w e) (some (e, some t))) s
      | .wait s =>
        if s.forced && s.me.part.any (·.shut) then
          runElems w chk prf es (st.setIfInBounds (slotOf w e) (some (e, none))) (s.setShut false)
        else (stopRest w (e :: es) st, [], s.setShut false)

/-- The counters that a stopped instruction leaves: per slot, the in-slot index of the first element not yet performed, S
for a slot with nothing left (R170); 0 for a slot number whose lane group the strand does not hold (log 99). -/
def stopCounters (w held : Nat) (st : Vector SlotStop 8) : Vector (BitVec 16) 8 :=
  Vector.ofFn fun (j : Fin 8) =>
    match st.getD j.val none with
    | some (e, _) => BitVec.ofNat 16 (e - slotFirst w j.val)
    | none => if j.val < held then BitVec.ofNat 16 (slotFirst w (j.val + 1) - slotFirst w j.val) else 0

/-- The trap of the lowest-numbered failing element (R170). -/
def lowestStop (st : Vector SlotStop 8) : Option Trap :=
  (st.toList.findSome? fun x => x.bind fun y => y.2)

/-- The mask m7 as it was when the instruction began (R81). -/
def Strand.m7Begin (x : Strand) : Mask := (x.part.map (·.m7)).getD x.m[7]

/-- The spans, in bits, that the instruction has written in the passes before this one (R388). -/
def Strand.spansBegin (x : Strand) : List (Nat × Nat) := (x.part.map (·.spans)).getD []

/-- The state in which an access waits, having come as far as given. -/
def State.keepPart (s : State) (tlg : Vector (BitVec 16) 8) (row : BitVec 6) (spans : List (Nat × Nat)) : State :=
  s.mapMe fun x => { x with part := x.part.map fun p => { p with tlg := tlg, row := row, spans := spans } }

/-- Whether the acknowledgement of a train is outstanding for the issuing strand (R181). -/
def State.trainsOut (s : State) : Bool := s.me.outst.any fun o => o.kind.isTrain

/-- What the stops of an instruction come to: a wait with the progress kept, the trap of R170, or completion.
Before it traps, a strand that has sent trains collects their acknowledgements (R181). -/
def State.finishElems (s : State) (w : Nat) (st : Vector SlotStop 8) (spans : List (Nat × Nat)) : Res Unit :=
  let c := stopCounters w s.held st
  if slotWaits st then .wait (s.keepPart c 0 spans)
  else match lowestStop st with
    | some t => if s.trainsOut then .wait (s.keepPart c 0 spans) else .trap { t with tlg := c, busy := s.me.partBusy } s
    | none => .ok () s

/-- The counters at which the slots start: those of a wait, those of the trap record after ERET, or 0 (R171). -/
def Strand.startCounters (x : Strand) : Vector (BitVec 16) 8 :=
  match x.part with
  | some p => p.tlg
  | none => if x.resume then x.tlg else Vector.replicate 8 0

/-- The row at which an instruction starts afresh: 0, or TROW after ERET (R198). -/
def Strand.firstRow (x : Strand) : Nat := if x.resume then x.trow.toNat else 0

/-- The row at which it goes on: where a wait has left it, or where it starts. -/
def Strand.startRow (x : Strand) : Nat :=
  match x.part with
  | some p => p.row.toNat
  | none => x.firstRow

/-- The strand whose vector or accumulator access, which loads the v registers given, is under way: it begins, or goes on after a
wait. -/
def Strand.beginPart (x : Strand) (busy : BitVec 32) : Strand :=
  let p : Part := { tlg := x.startCounters, row := BitVec.ofNat 6 x.startRow, m7 := x.m7Begin, spans := x.spansBegin,
                    busy := busy, shut := false }
  { x with part := some p }

/-- The state whose issuing strand's access is under way. -/
def State.beginPart (s : State) (busy : BitVec 32) : State := s.mapMe fun x => x.beginPart busy

/-- The state as a masked instruction that waits sees it when it goes on: with m7 as it was when it began (R81; log 101). -/
def State.maskView (s : State) : State := s.mapMe fun x => { x with m := x.m.set 7 x.m7Begin }

/-- The active elements not yet performed, in ascending order. -/
def State.pendingElems (s : State) (w : Nat) (k : VMask) : List Nat :=
  (s.maskView.actives k).filter fun e =>
    slotFirst w (slotOf w e) + (s.me.startCounters.getD (slotOf w e) 0).toNat ≤ e

/-! ## Held translations (R171, R175, R182, R198; log 112) -/

/-- The state in which the issuing strand holds, for an element or row, the translation of an address that it resumes at, if there
is one. -/
def State.holdUnit (s : State) (tag : Nat) (kind : AccKind) (va : Word) : State :=
  match s.translate s.ctx va kind with
  | (.ok _ _ (some e), s) =>
    if s.me.kept.contains (tag, e) then s else s.mapMe fun x => { x with kept := x.kept ++ [(tag, e)] }
  | (_, s) => s

/-- The state in which the translations of all units of some elements or rows are held. -/
def State.holdAll (s : State) (kind : AccKind) (units : Nat → List Word) (l : List Nat) : State :=
  l.foldl (fun s e => (units e).foldl (fun s va => s.holdUnit e kind va) s) s

/-- The state in which an element or row, once performed, has let its translations go. -/
def State.unhold (s : State) (tag : Nat) : State :=
  if s.me.kept.isEmpty then s else s.mapMe fun x => { x with kept := x.kept.filter fun y => y.1 != tag }

/-- The elements for which a resumed instruction holds translations: those at the counters of the trap record, while they are still to
be performed. -/
def State.heldElems (s : State) (w : Nat) (k : VMask) : List Nat :=
  if !s.me.resume then []
  else (s.pendingElems w k).filter fun e => e == slotFirst w (slotOf w e) + (s.me.tlg.getD (slotOf w e) 0).toNat

/-- The state in which a resumed instruction holds the translations of its elements. -/
def State.holdElems (s : State) (w : Nat) (k : VMask) (kind : AccKind) (units : Nat → List Word) : State :=
  s.holdAll kind units (s.heldElems w k)

/-- A state after a pass over one instruction's loads: of the errors that arrived with its data, the first is deferred (R172; log
97). -/
def State.oneDeferred (s0 s : State) : State :=
  let p := s0.me.pend
  s.mapMe fun x => { x with pend := { x.pend with
    deferred := x.pend.deferred.take (p.deferred.length + 1), late := x.pend.late.take (p.late.length + 1) } }

/-! ## One element (R166, R168, R172) -/

/-- The checks of the n bytes at va, aligned to n (R168). -/
def State.checkUnit (s : State) (va : Word) (n : Nat) (kind : AccKind) : Res (Word × Grant) :=
  if va.toNat % n ≠ 0 then .trap (Trap.sync 0x03 va) s
  else (s.check s.ctx va kind .plain).bind fun g s => .ok (va, g) s

/-- The checks of several units, all of which must pass (R76, R176). -/
def State.checkUnits (kind : AccKind) (n : Nat) : List Word → State → Res (List (Word × Grant))
  | [], s => .ok [] s
  | va :: r, s => (s.checkUnit va n kind).bind fun g s => (State.checkUnits kind n r s).bind fun gs s => .ok (g :: gs) s

/-- The n bytes that an element's load receives; none, with the error deferred under the unit's address, for poison or a timeout
(R172; log 97). -/
def State.loadUnit (s : State) (u : Word × Grant) (n : Nat) : Option Nat × State :=
  match s.timeoutFor s.ctx u.2 with
  | some (k, _) => (none, s.timeOut k u.1)
  | none =>
    if s.isPoisoned u.2.key n then
      (none, (s.mapMe fun x => x.defer 0x18 u.1).usePoison s.myTile u.2.key)
    else (some (s.load u.2.key n), s.recordAccess s.ctx u.2 false)

/-- The bytes of several units, loaded in order, the first lowest; a unit whose data met an error gives 0, the other fields of its
segment element what they hold (R172; log 97). -/
def State.loadUnits (n : Nat) : List (Word × Grant) → State → Nat × State
  | [], s => (0, s)
  | u :: r, s =>
    let x := s.loadUnit u n
    let y := State.loadUnits n r x.2
    (x.1.getD 0 + 2 ^ (8 * n) * y.1, y.2)

/-- The bytes that hold one narrow element, loaded in order; none as soon as one meets an error (R172). -/
def State.loadBytes : List (Word × Grant) → State → Option Nat × State
  | [], s => (some 0, s)
  | u :: r, s =>
    match s.loadUnit u 1 with
    | (none, s) => (none, s)
    | (some x, s) => let y := State.loadBytes r s
      (y.1.map fun z => x + 2 ^ 8 * z, y.2)

/-- The byte addresses that hold element e of w bits, w below 8, of the bytes from a (R76). -/
def narrowBytes (a : Word) (w e : Nat) : List Word :=
  (List.range ((w * e % 8 + w + 7) / 8)).map fun i => a + BitVec.ofNat 64 (w * e / 8 + i)

/-- The units of a unit-stride element: one of w/8 bytes, or the bytes that hold a narrow one (R166). -/
def plainUnits (a : Word) (w e : Nat) : List Word :=
  if w < 8 then narrowBytes a w e else [a + BitVec.ofNat 64 (e * (w / 8))]

/-- The bytes of one unit of a width. -/
def unitBytes (w : Nat) : Nat := if w < 8 then 1 else w / 8

/-- An element out of the bytes of its units. -/
def fromUnits (w e x : Nat) : Nat := if w < 8 then (x >>> (w * e % 8)) % 2 ^ w else x

/-- Element e loaded from its units: 0 for a narrow one any of whose bytes meets an error (R172). Of a VLW element it is the code that
is 0 (log 97). -/
def State.loadElem (w e : Nat) (l : List (Word × Grant)) (s : State) : Nat × State :=
  if w < 8 then
    let x := State.loadBytes l s
    ((x.1.map (fromUnits w e)).getD 0, x.2)
  else State.loadUnits (unitBytes w) l s

/-- One unit of a store; of a narrow element only its own bits are merged into each byte (R167). -/
def State.storeUnits (w e x : Nat) : Nat → List (Word × Grant) → State → State
  | _, [], s => s
  | i, u :: r, s =>
    let b := if w < 8 then
        (setField (BitVec.ofNat 24 (s.load u.2.key 1 <<< (8 * i))) (w * e % 8) w x).toNat >>> (8 * i) % 256
      else x
    let s := s.perform s.ctx u.2 u.1 (leBytes (unitBytes w) b)
    State.storeUnits w e x (i + 1) r s

/-! ## Loads and stores of one register (R174, R177) -/

/-- Misaligned Access with address g_a, before any element is performed, with the counters at which the slots start (R166;
log 99). -/
def State.needAligned (s : State) (ok : Bool) (a : Word) : Res Unit :=
  if ok then .ok () s else .trap { Trap.sync 0x03 a with tlg := s.me.startCounters } s

/-- A load of the registers in busy: each pending element checked, loaded and written as put says. -/
def State.vload (s : State) (w sw : Nat) (busy : BitVec 32) (k : VMask) (units : Nat → List Word)
    (put : Nat → Nat → State → State) : Res Unit :=
  let s := (s.beginPart busy).holdElems sw k .load units
  let r := runElems sw (fun e s => State.checkUnits .load (unitBytes w) (units e) s)
    (fun e g s => let x := State.loadElem w e g s; (put e x.1 x.2).unhold e)
    (s.pendingElems sw k) (Vector.replicate 8 none) s
  (s.oneDeferred r.2.2).finishElems sw r.1 []

/-- The state with element e of v_d written, nothing else. -/
def State.putElem (d : Reg) (w e x : Nat) (s : State) : State := s.setV d (setElem (s.vreg d) w e x)

/-- The units of performed elements with the element and the place of the unit in it, without the one whose request is lost
before it is performed (R389). -/
def State.writtenUnits (s : State) (l : List (Nat × List (Word × Grant))) : List (Nat × Nat × Word × Grant) :=
  let u := l.flatMap fun x => x.2.zipIdx.map fun y => (x.1, y.2, y.1)
  match s.lostFor s.cur (.strand s.cur) with
  | some false => u.eraseP fun y => y.2.2.2.leaves s.myTile
  | _ => u

/-- The span, in bits, that unit i of element e writes: of a narrow element its own bits of that byte (R167). -/
def unitSpan (w e i key : Nat) : Nat × Nat :=
  if w < 8 then
    let b := 8 * (w * e / 8 + i)
    let lo := max (w * e) b
    (8 * key + (lo - b), min (w * e + w) (b + 8) - lo)
  else (8 * key, w)

/-- The spans of bytes that spans of bits cover whole. -/
def byteSpans (l : List (Nat × Nat)) : List (Nat × Nat) :=
  let whole (x : Nat × Nat) : Bool := x.1 % 8 == 0 && x.2 % 8 == 0
  let part := l.filter fun x => !whole x
  ((l.filter whole).map fun x => (x.1 / 8, x.2 / 8)) ++
  (((part.map fun x => x.1 / 8).eraseDups.filter fun b =>
    (List.range 8).all fun i => part.any fun x => decide (x.1 ≤ 8 * b + i) && decide (8 * b + i < x.1 + x.2)).map fun b => (b, 1))

/-- What stays outstanding until it is acknowledged: the stores of one pass over a vector store's elements (R209). -/
def State.storesOut (s : State) (l : List (Nat × List (Word × Grant))) : List Outst :=
  if l.isEmpty then []
  else [{ kind := .vector, since := s.clock,
          addrs := l.flatMap fun x => x.2.map fun u => (u.1, u.2.leaves s.myTile) }]

/-- A store: each pending element checked and performed; poisoned halves that the instruction has covered whole are clean, and
what was performed is outstanding until it is acknowledged (R174, R181, R209, R388). -/
def State.runStores {γ : Type} (s : State) (w : Nat) (k : VMask) (units : Nat → List Word) (chk : Nat → State → Res γ)
    (prf : Nat → γ → State → State) (spans : List (Nat × γ) → List (Nat × Nat)) (out : List (Nat × γ) → List Outst) : Res Unit :=
  let s := (s.beginPart 0).holdElems w k .store units
  let r := runElems w chk (fun e g s => (prf e g s).unhold e) (s.pendingElems w k) (Vector.replicate 8 none) s
  let l := s.me.spansBegin ++ spans r.2.1
  ((r.2.2.unpoison (byteSpans l)).mapMe fun x => { x with outst := x.outst ++ out r.2.1 }).finishElems w r.1 l

/-- A store of one register (R174). -/
def State.vstore (s : State) (w : Nat) (k : VMask) (units : Nat → List Word) (val : Nat → Nat) : Res Unit :=
  s.runStores w k units (fun e s => State.checkUnits .store (unitBytes w) (units e) s)
    (fun e g s => State.storeUnits w e (val e) 0 g s)
    (fun l => (s.writtenUnits l).map fun u => unitSpan w u.1 u.2.1 u.2.2.2.key) s.storesOut

/-- A v register as a bit of VPI (R143). -/
def regBit (d : Reg) : BitVec 32 := 1 <<< d.toNat

/-- The address of a strided element (R166). -/
def strideAddr (a st : Word) (e : Nat) : Word := a + BitVec.ofNat 64 e * st

/-- The address of an indexed element (R166). -/
def indexedAddr (a : Word) (x n : Nat) : Word := a + BitVec.ofNat 64 (x * n)

/-- The shape of a vector memory instruction of one width: the width check, nothing at VL = 0, then the body (R165,
R167). -/
def State.vmem (s : State) (w : Nat) (body : State → Res Unit) : Host.Outcome State Fault Refusal :=
  ((s.needEw w).bind fun _ s => if s.vlen = 0 then .ok () s.retire else (body s).retire).finish

/-- The bits of a four-code width. -/
def width4Bits : Width4 → Nat
  | .w8 => 8 | .w16 => 16 | .w32 => 32 | .w64 => 64

/-- Whether g_a is aligned for elements of width w: any byte for a narrow one (R166). -/
def baseAligned (a : Word) (w : Nat) : Bool := a.toNat % unitBytes w == 0

/-- VLD (R174). -/
def execVld (w : Width) (d a : Reg) (k : VMask) (s : State) : Host.Outcome State Fault Refusal :=
  let n := widthBits w
  s.vmem n fun s => (s.needAligned (baseAligned (s.readG a) n) (s.readG a)).bind fun _ s =>
    s.vload n n (regBit d) k (plainUnits (s.readG a) n) (State.putElem d n)

/-- VLDS (R174). -/
def execVlds (w : Width4) (d a x : Reg) (k : VMask) (s : State) : Host.Outcome State Fault Refusal :=
  let n := width4Bits w
  s.vmem n fun s => (s.needAligned (baseAligned (s.readG a) n && baseAligned (s.readG x) n) (s.readG a)).bind fun _ s =>
    s.vload n n (regBit d) k (fun e => [strideAddr (s.readG a) (s.readG x) e]) (State.putElem d n)

/-- VST (R174). -/
def execVst (w : Width) (d a : Reg) (k : VMask) (s : State) : Host.Outcome State Fault Refusal :=
  let n := widthBits w
  s.vmem n fun s => (s.needAligned (baseAligned (s.readG a) n) (s.readG a)).bind fun _ s =>
    s.vstore n k (plainUnits (s.readG a) n) (s.elem d n)

/-- VSTS (R174). -/
def execVsts (w : Width4) (d a x : Reg) (k : VMask) (s : State) : Host.Outcome State Fault Refusal :=
  let n := width4Bits w
  s.vmem n fun s => (s.needAligned (baseAligned (s.readG a) n && baseAligned (s.readG x) n) (s.readG a)).bind fun _ s =>
    s.vstore n k (fun e => [strideAddr (s.readG a) (s.readG x) e]) (s.elem d n)

/-- VGATHER: every index and the mask are read before any element is written (R167, R177). -/
def State.gather (s : State) (w : Width4) (d a x : Reg) (k : VMask) : Host.Outcome State Fault Refusal :=
  let n := width4Bits w
  s.vmem n fun s =>
    let v := s.vreg x
    s.vload n n (regBit d) k (fun e => [indexedAddr (s.readG a) (elemOf v n e) (n / 8)]) (State.putElem d n)

/-- VGATHER (R177). -/
def execVgather (w : Width4) (d a x : Reg) (k : VMask) (s : State) : Host.Outcome State Fault Refusal :=
  s.gather w d a x k

/-- VGATHER.NB acts as VGATHER; its presence bits decide only when a later reader may start (R178). -/
def execVgatherNb (w : Width4) (d a x : Reg) (k : VMask) (s : State) : Host.Outcome State Fault Refusal :=
  s.gather w d a x k

/-! ## VLD.FF (R175) -/

/-- The pending elements checked in ascending order up to the first that fails or waits: those that passed, and the
failure or the wait. -/
def ffScan {γ : Type} (chk : Nat → State → Res γ) : List Nat → State → List (Nat × γ) × Option (Nat × Option Trap) × State
  | [], s => ([], none, s)
  | e :: es, s =>
    match chk e s with
    | .ok g s =>
      let r := ffScan chk es s
      ((e, g) :: r.1, r.2)
    | .trap t s => ([], some (e, some t), s)
    | .wait s => ([], some (e, none), s)

/-- Whether a failed check of a fault-only-first instruction is trimmed (R175, R200). -/
def trimmable (t : Trap) : Bool := t.cause == 0x04 || t.cause == 0x07

/-- The length trimmed at element k: whole groups at width 6 (R175). -/
def trimmedLength (w k : Nat) : Nat := if w = 6 ∧ 4 ≤ k then 4 * (k / 4) else k

/-- The passed elements below k performed (R175). -/
def State.ffLoad (s0 s : State) (w k : Nat) (d : Reg) (l : List (Nat × List (Word × Grant))) : State :=
  s0.oneDeferred ((l.filter fun e => e.1 < k).foldl (fun s e =>
    let v := State.loadElem w e.1 e.2 s
    (State.putElem d w e.1 v.1 v.2).unhold e.1) s)

/-- The elements below k performed, VL and g_x set to k (R175). -/
def State.ffPerform (s0 s : State) (w k : Nat) (d x : Reg) (l : List (Nat × List (Word × Grant))) : State :=
  ((s0.ffLoad s w k d l).mapMe fun y => { y with vl := k }).writeG x (BitVec.ofNat 64 k)

/-- VLD.FF past its base check: a failure above the lowest active element trims VL, also where an access resumed after a trap has
done that one, and nothing after it is checked; any other traps as VLD does. Where an element waits, those below it that have passed
are performed, in whole groups at width 6 (R170, R173, R175; log 91). -/
def State.vldFf (s : State) (w : Nat) (d a x : Reg) (k : VMask) : Res Unit :=
  let units := plainUnits (s.readG a) w
  let s := (s.beginPart (regBit d)).holdElems w k .load units
  let l := s.pendingElems w k
  let r := ffScan (fun e s => State.checkUnits .load (unitBytes w) (units e) s) l s
  match r.2.1 with
  | none => .ok () (s.ffPerform r.2.2 w (trimmedLength w s.vlen) d x r.1)
  | some (e, none) =>
    let n := trimmedLength w e
    let st := stopRest w (l.filter fun i => n ≤ i) (Vector.replicate 8 none)
    .wait ((s.ffLoad r.2.2 w n d r.1).keepPart (stopCounters w s.held st) 0 [])
  | some (e, some t) =>
    if trimmable t && (s.maskView.actives k).head? != some e then .ok () (s.ffPerform r.2.2 w (trimmedLength w e) d x r.1)
    else s.vload w w (regBit d) k units (State.putElem d w)

/-- VLD.FF (R175); at VL = 0, g_x := 0. -/
def execVldFf (w : Width) (d a x : Reg) (k : VMask) (s : State) : Host.Outcome State Fault Refusal :=
  let n := widthBits w
  ((s.needEw n).bind fun _ s =>
    if s.vlen = 0 then .ok () (s.writeRetire x 0)
    else ((s.needAligned (baseAligned (s.readG a) n) (s.readG a)).bind fun _ s => s.vldFf n d a x k).retire).finish

/-! ## VLW (R182, R83 to R87) -/

/-- Byte i of window n of a scale register (R85). -/
def scaleByte (v : VReg) (n i : Nat) : Nat := elemOf v 8 (256 * n + i)

/-- The band scale of the first operand, 0, or the second, 1, in window n (R85). -/
def bandScale (v : VReg) (n o : Nat) : FVal := bf16.decode (elemOf v 16 (128 * n + 64 + o))

/-- The block scale of block b of operand o (R84, R85). -/
def blockScale (v : VReg) (b o : Nat) : FVal := e3m5.decode (scaleByte v (b / 64) (64 * o + b % 64))

/-- A value times scales, exactly; NV when the scales make NaN of non-NaN codes (R87). -/
def scaledBy (x : FVal) (l : List FVal) : FVal × Bool :=
  let y := l.foldl (fun (a : FVal × Bool) b => let p := a.1.mul b; (p.1, a.2 || p.2)) (x, false)
  (y.1, y.2 && !x.isNan && l.all fun b => !b.isNan)

/-- A VLW element: the code scaled and narrowed to BF16, RNE (R182). -/
def vlwElem (f : Fmt) (per : Nat) (v31 : VReg) (e x : Nat) : Narrowed :=
  let b := e / per
  let y := scaledBy (f.decode x) [blockScale v31 b 0, bandScale v31 (b / 64) 0]
  let r := bf16.sat .rne y.1
  { r with flags := r.flags ||| nvIf y.2 }

/-- The format and the elements per block of a VLW source. -/
def vlwSource : VlwTy → Fmt × Nat
  | .e4m3 => (e4m3, 4)
  | .e2m1 => (e2m1, 8)

/-- VLW: EW must be 16. With v31 as destination nothing is performed before every element has passed, and a resumed instruction
holds the translations of all its pages (R182). -/
def execVlw (t : VlwTy) (d a : Reg) (k : VMask) (s : State) : Host.Outcome State Fault Refusal :=
  let f := vlwSource t
  let w := f.1.bits
  s.vmem 16 fun s =>
    let v31 := s.vreg 31
    let put (e x : Nat) (s : State) : State := s.narrowed d 16 [(e, vlwElem f.1 f.2 v31 e x)]
    let units := plainUnits (s.readG a) w
    if d = 31 then
      let l := s.pendingElems 16 k
      let s := (s.beginPart (regBit d)).holdAll .load units (if s.me.resume then l else [])
      let scan := ffScan (fun e s => State.checkUnits .load (unitBytes w) (units e) s) l s
      match scan.2.1 with
      | none => s.vload w 16 (regBit d) k units put
      | some (_, some t) => .trap { t with busy := regBit d } scan.2.2
      | some (_, none) => .wait (scan.2.2.keepPart (Vector.replicate 8 0) 0 [])
    else s.vload w 16 (regBit d) k units put

/-! ## Segments (R176) -/

/-- The field addresses of element e of an n-field segment access (R166). -/
def segUnits (a : Word) (n z e : Nat) : List Word :=
  (List.range n).map fun f => a + BitVec.ofNat 64 ((n * e + f) * z)

/-- Field f of a segment in register v(d + f). -/
def fieldReg (d : Reg) (f : Nat) : Reg := d + BitVec.ofNat 5 f

/-- The registers of an n-field segment access as bits of VPI (R143). -/
def segBits (d : Reg) (n : Nat) : BitVec 32 := (List.range n).foldl (fun v f => v ||| regBit (fieldReg d f)) 0

/-- VLSEGn: an element is performed only when all its fields pass (R176). -/
def execVlseg (w : Width4) (n : BitVec 3) (d a : Reg) (k : VMask) (s : State) : Host.Outcome State Fault Refusal :=
  let b := width4Bits w
  let nf := n.toNat + 1
  s.vmem b fun s => (s.needAligned (baseAligned (s.readG a) b) (s.readG a)).bind fun _ s =>
    s.vload b b (segBits d nf) k (segUnits (s.readG a) nf (b / 8)) fun e x s =>
      (List.range nf).foldl (fun s f => State.putElem (fieldReg d f) b e (x >>> (b * f)) s) s

/-- The fields of one element stored in ascending order. -/
def State.storeFields (b e : Nat) (val : Nat → Nat) : Nat → List (Word × Grant) → State → State
  | _, [], s => s
  | f, u :: r, s => State.storeFields b e val (f + 1) r (State.storeUnits b e (val f) 0 [u] s)

/-- VSSEGn (R176). -/
def execVsseg (w : Width4) (n : BitVec 3) (d a : Reg) (k : VMask) (s : State) : Host.Outcome State Fault Refusal :=
  let b := width4Bits w
  let nf := n.toNat + 1
  s.vmem b fun s => (s.needAligned (baseAligned (s.readG a) b) (s.readG a)).bind fun _ s =>
    s.runStores b k (segUnits (s.readG a) nf (b / 8))
      (fun e s => State.checkUnits .store (b / 8) (segUnits (s.readG a) nf (b / 8) e) s)
      (fun e g s' => State.storeFields b e (fun f => s.elem (fieldReg d f) b e) 0 g s')
      (fun l => (s.writtenUnits l).map fun u => unitSpan b u.1 u.2.1 u.2.2.2.key) s.storesOut

/-! ## Trains: VSCATTER and VSEND (R177, R180, R181) -/

/-- The unit that serialises a stored address, as a number: a memory-side die, or the level or module beyond (R181). -/
def trainDest (key : Nat) : Nat :=
  if homedHere key then homeDie key
  else match placeOf 0 key with
    | .chip d _ => 4 + d
    | .cask c _ => 8 + c
    | .tile t _ => 168 + t
    | .peer m _ => 808 + m
    | _ => 872

/-- One train per destination of the performed elements, each with the addresses of its elements (R181). -/
def State.trainsOf (s : State) (l : List (Nat × Word)) : List Outst :=
  (l.map (·.1)).eraseDups.map fun d =>
    { kind := .train d, since := s.clock, addrs := (l.filter fun x => x.1 == d).map fun x => (x.2, true) }

/-- VSCATTER (R177, R181). -/
def execVscatter (w : Width4) (d a x : Reg) (k : VMask) (s : State) : Host.Outcome State Fault Refusal :=
  let n := width4Bits w
  s.vmem n fun s =>
    s.runStores n k (fun e => [indexedAddr (s.readG a) (s.elem x n e) (n / 8)])
      (fun e s => State.checkUnits .store (n / 8) [indexedAddr (s.readG a) (s.elem x n e) (n / 8)] s)
      (fun e g s => State.storeUnits n e (s.elem d n e) 0 g s)
      (fun l => (s.writtenUnits l).map fun u => unitSpan n u.1 u.2.1 u.2.2.2.key)
      fun l => s.trainsOf (l.flatMap fun x => x.2.map fun u => (trainDest u.2.key, u.1))

/-- Where VSEND's element goes: tile and offset, or the trap of R180. The offset is an exact sum (R11); of one that needs more
than 64 bits the trap names the low 64 (log 98). -/
def State.sendTarget (s : State) (a : Word) (i z : Nat) : Res Nat :=
  let t := field (BitVec.ofNat 64 i) 19 10
  let o := a.toNat + i % 2 ^ 19
  if i / 2 ^ 29 ≠ 0 ∨ 640 ≤ t then .trap (Trap.sync 0x07 (BitVec.ofNat 64 i)) s
  else if o % z ≠ 0 then .trap (Trap.sync 0x03 (BitVec.ofNat 64 o)) s
  else if 0x8_0000 < o + z ∨ !s.mayReach s.myTile (.tile t o) then .trap (Trap.sync 0x07 (BitVec.ofNat 64 o)) s
  else .ok (Place.tile t o).key s

/-- The bits of a VSEND width. -/
def sendBits : SendW → Nat
  | .w32 => 32 | .w64 => 64

/-- VSEND: no translation, no reservation; the elements of one destination in ascending order (R180, R181). An element of an
unacknowledged train is named by its address in the tile range (log 98). -/
def execVsend (w : SendW) (d a x : Reg) (k : VMask) (s : State) : Host.Outcome State Fault Refusal :=
  let n := sendBits w
  s.vmem n fun s =>
    s.runStores n k (fun _ => []) (fun e s => s.sendTarget (s.readG a) (s.elem x n e) (n / 8))
      (fun e key s => s.store (some (.strand s.cur)) key (leBytes (n / 8) (s.elem d n e)))
      (fun l => l.map fun x => (8 * x.2, n)) fun l => s.trainsOf (l.map fun x => (trainDest x.2, BitVec.ofNat 64 x.2))

/-! ## Lane slices (R179) -/

/-- The offset of an element in its lane's slice, or Access Violation with the offset (R57, R179). -/
def State.sliceOffset (s : State) (a : Word) (x z : Nat) : Res Nat :=
  let o := indexedAddr a x z
  if 4096 ≤ o.toNat ∨ 4096 < o.toNat + z ∨ o.toNat % z ≠ 0 then .trap (Trap.sync 0x07 o) s else .ok o.toNat s

/-- The value of w bits at offset o of a lane's slice; 0, with the error deferred under the offset, where a half is poisoned
(R172, R179, R388). -/
def State.sliceLoad (s : State) (l o w : Nat) : Nat × State :=
  if s.isPoisoned (sliceKey s.myTile l + o) (w / 8) then
    (0, (s.mapMe fun x => x.defer 0x18 (BitVec.ofNat 64 o)).count (dieOf s.myTile) .poisonuse)
  else (field ((s.tile s.myTile).slices.getD l 0) (8 * o) w, s)

/-- VLSL (R179). -/
def execVlsl (w : Width4) (d a x : Reg) (k : VMask) (s : State) : Host.Outcome State Fault Refusal :=
  let n := width4Bits w
  s.vmem n fun s =>
    let v := s.vreg x
    let g := s.groupsOf s.cur
    let s := s.beginPart (regBit d)
    let r := runElems n (fun e s => s.sliceOffset (s.readG a) (elemOf v n e) (n / 8))
      (fun e o s => let x := s.sliceLoad (laneOf g n e) o n; State.putElem d n e x.1 x.2)
      (s.pendingElems n k) (Vector.replicate 8 none) s
    (s.oneDeferred r.2.2).finishElems n r.1 []

/-- VSSL (R179). -/
def execVssl (w : Width4) (d a x : Reg) (k : VMask) (s : State) : Host.Outcome State Fault Refusal :=
  let n := width4Bits w
  s.vmem n fun s =>
    let g := s.groupsOf s.cur
    s.runStores n k (fun _ => []) (fun e s => s.sliceOffset (s.readG a) (s.elem x n e) (n / 8))
      (fun e o s => s.mapTile s.myTile fun t =>
        let l := laneOf g n e
        { t with slices := t.slices.setIfInBounds l (setField (t.slices.getD l 0) (8 * o) n (s.elem d n e)) })
      (fun l => l.map fun u => (8 * (sliceKey s.myTile (laneOf g n u.1) + u.2), n)) fun _ => []

end Sys2Proof.Machine
end

