-- ==== Sys2Proof/Machine/Matrix.lean ====
section
/-!
DEFINITION. Matrix instructions, majors 0x30 to 0x33: R88, R183 to R200.
-/

namespace Sys2Proof.Machine

/-! ## Views of an accumulator (R183) -/

/-- The rows of a view: 32 at 64 bits, 64 at 32 bits (R186). -/
def viewRows (w : Nat) : Nat := if w = 64 then 32 else 64

/-- The bit at which element (i, j) of the w-bit view begins. -/
def accBit (w i j : Nat) : Nat := w * (64 * i + j)

/-- Element (i, j) of the w-bit view. -/
def accElem (a : Acc) (w i j : Nat) : Nat := field a (accBit w i j) w

/-- The accumulator with element (i, j) of the w-bit view replaced. -/
def setAcc (a : Acc) (w i j x : Nat) : Acc := setField a (accBit w i j) w x

/-- Accumulator n of the issuing strand's tile. -/
def State.acc (s : State) (n : AccN) : Acc := (s.tile s.myTile).acc.getD n.toNat 0

/-- The state with accumulator n of the issuing strand's tile replaced. -/
def State.setAccN (s : State) (n : AccN) (a : Acc) : State :=
  s.mapTile s.myTile fun t => { t with acc := t.acc.setIfInBounds n.toNat a }

/-! ## Checks (R185, R186) -/

/-- Matrix State with the accumulator number, unless the strand holds it (R185). -/
def State.needAcc (s : State) (n : AccN) : Res Unit :=
  if (s.accen s.cur).getLsbD n.toNat then .ok () s else .trap (Trap.sync 0x08 (BitVec.ofNat 64 n.toNat)) s

/-- The group check of R185: positions 64 × grp to 64 × grp + len − 1 lie below VLMAX. -/
def State.needGroup (s : State) (grp : BitVec 3) (len : Nat) : Res Unit :=
  if 64 * grp.toNat + len ≤ vlmax s.held s.ewBits then .ok () s else s.vectorState

/-- The numbers below n whose bit of a mask register is 1. -/
def State.maskOn (s : State) (m : MReg) (n : Nat) : List Nat := (List.range n).filter fun i => (s.mask m).getLsbD i

/-- The active elements of rows below n, row by row. -/
def State.activeCells (s : State) (mr mc : MReg) (n : Nat) : List (Nat × Nat) :=
  (s.maskOn mr n).flatMap fun i => (s.maskOn mc 64).map fun j => (i, j)

/-! ## ACCON, ACCOFF and zeroing (R187 to R190) -/

/-- Whether a word is an ACCON (R194). -/
def isAccon (w : IWord) : Bool := field w 26 6 == 0x32 && field w 0 4 == 0

/-- ACCON: 1 when the strand holds the accumulator or takes it, zeroed; 0 when another strand holds it (R188). Of strands that reach it
in one cycle the lowest-numbered goes first (R20). -/
def execAccon (n : AccN) (d : Reg) (s : State) : Host.Outcome State Fault Refusal :=
  match s.before s.cur isAccon false with
  | some m => .next (s.yieldTo m)
  | none =>
    match (s.tile s.myTile).accOwner.getD n.toNat none with
    | some i => s.setNext d (if i = subOf s.cur then 1 else 0)
    | none =>
      let s := s.mapTile s.myTile fun t => { t with accOwner := t.accOwner.setIfInBounds n.toNat (some (subOf s.cur)) }
      (s.setAccN n 0).setNext d 1

/-- Whether a store from accumulator n of the issuing strand is still to be acknowledged (R189, R209). -/
def State.accBusy (s : State) (n : AccN) : Bool := s.me.outst.any fun o => o.kind == .acc n.toNat

/-- ACCOFF: no effect on an accumulator that the strand does not hold; otherwise it waits for the earlier instructions that name
it, stores among them, and releases it, its contents discarded (R189). -/
def execAccoff (n : AccN) (s : State) : Host.Outcome State Fault Refusal :=
  if !(s.accen s.cur).getLsbD n.toNat then .next s.retire
  else if s.accBusy n then .next s
  else .next ((s.setAccN n 0).mapTile s.myTile fun t => { t with accOwner := t.accOwner.setIfInBounds n.toNat none }).retire

/-- ACCZ: FP32-view rows below min(VL, 64) set to zero (R190). -/
def execAccz (n : AccN) (s : State) : Host.Outcome State Fault Refusal :=
  ((s.needAcc n).bind fun _ s =>
    let rows := min s.vlen 64
    .ok () (s.setAccN n (((s.acc n) >>> (2048 * rows)) <<< (2048 * rows))).retire).finish

/-- ACCZ.M: the enabled elements below min(VL, 64) rows set to zero (R190). -/
def execAcczM (n : AccN) (mr mc : MReg) (s : State) : Host.Outcome State Fault Refusal :=
  ((s.needAcc n).bind fun _ s =>
    let a := (s.activeCells mr mc (min s.vlen 64)).foldl (fun a x => setAcc a 32 x.1 x.2 0) (s.acc n)
    .ok () (s.setAccN n a).retire).finish

/-! ## MOPA (R88, R191 to R193) -/

/-- How a MOPA reads an operand: the format of a value, its spacing in the container, and how many there are (R192). -/
structure OpForm where
  fmt : NumFmt
  step : Nat
  count : Nat
deriving DecidableEq, Repr

/-- The operand form of an MX type (R192). -/
def mxForm : MxTy → OpForm
  | .f64 => ⟨.fp fp64, 64, 1⟩ | .f32 => ⟨.fp fp32, 32, 1⟩ | .tf32 => ⟨.fp tf32, 32, 1⟩
  | .bf16 => ⟨.fp bf16, 16, 2⟩ | .f16 => ⟨.fp fp16, 16, 2⟩
  | .e5m2 => ⟨.fp e5m2, 8, 4⟩ | .e4m3 => ⟨.fp e4m3, 8, 4⟩ | .e3m2 => ⟨.fp e3m2, 6, 4⟩ | .e2m3 => ⟨.fp e2m3, 6, 4⟩
  | .e2m1 => ⟨.fp e2m1, 4, 8⟩ | .s8 => ⟨.int true 8, 8, 4⟩ | .n8 => ⟨.int false 8, 8, 4⟩

/-- Whether a form's operands are scaled (R83). -/
def OpForm.scaled (f : OpForm) : Bool :=
  match f.fmt with
  | .fp g => decide (g.bits ≤ 8)
  | .int _ _ => false

/-- The operand forms of a mixed MOPA (R191). -/
def mixForms : MixTy → OpForm × OpForm
  | .s8n8 => (mxForm .s8, mxForm .n8) | .n8s8 => (mxForm .n8, mxForm .s8)
  | .e5m2e4m3 => (mxForm .e5m2, mxForm .e4m3) | .e4m3e5m2 => (mxForm .e4m3, mxForm .e5m2)

/-- The values that a container holds (R192). -/
def OpForm.values (f : OpForm) (x : Nat) : List FVal :=
  (List.range f.count).map fun k => f.fmt.value ((x >>> (f.step * k)) % 2 ^ f.fmt.bits)

/-- c plus the products of two containers, the block sum scaled as listed, in one rounding; NV when no input is NaN and
the result is (R74, R87, R88). -/
def Fmt.outer (f : Fmt) (c : FVal) (a b scales : List FVal) : Nat × Flags :=
  let p := (exactSum .rne ((a.zip b).map fun x => (x.1.mul x.2).1)).1
  let z := (FVal.add .rne c (scales.foldl (fun x y => (x.mul y).1) p)).1
  let anyNan := (c :: a ++ b ++ scales).any FVal.isNan
  let r := f.round .rne z
  (r.1, r.2 ||| nvIf (z.isNan && !anyNan))

/-- The integer that an exact integer value is. -/
def FVal.toInt : FVal → Int
  | .fin neg m e => unitsOf neg m e 0
  | _ => 0

/-- The update of R88 of one accumulator element from the containers of its row and column. -/
def mopaUpdate (fa fb : OpForm) (c x y : Nat) (scales : List FVal) : Nat × Flags :=
  let a := fa.values x
  let b := fb.values y
  match fa.fmt with
  | .int _ _ => (intCode 32 ((c : Int) + ((a.zip b).map fun v => v.1.toInt * v.2.toInt).sum), 0)
  | .fp f =>
    let g := if f.bits = 64 then fp64 else fp32
    g.outer (g.decode c) a b scales

/-- The scales of row i and column j: block scales of window grp at bytes i and 64 + j, then the band scales (R192). -/
def mopaScales (v31 : VReg) (grp i j : Nat) : List FVal :=
  [blockScale v31 (64 * grp + i) 0, blockScale v31 (64 * grp + j) 1, bandScale v31 grp 0, bandScale v31 grp 1]

/-- MOPA (R193): the enabled elements of rows below min(VL, RT) updated, the flags into the retained set. -/
def State.mopa (s : State) (fa fb : OpForm) (n : AccN) (a b : Reg) (mr mc : MReg) (grp : BitVec 3) : Res Unit :=
  let w := if fa.fmt.bits = 64 then 64 else 32
  (s.needAcc n).bind fun _ s => (s.needEw w).bind fun _ s =>
    let rows := min s.vlen (viewRows w)
    (if rows = 0 then .ok () s else s.needGroup grp 64).bind fun _ s =>
      let base := 64 * grp.toNat
      let r := (s.activeCells mr mc rows).foldl (fun (r : Acc × Flags) x =>
        let sc := if fa.scaled then mopaScales (s.vreg 31) grp.toNat x.1 x.2 else []
        let u := mopaUpdate fa fb (accElem (s.acc n) w x.1 x.2) (s.elem a w (base + x.1)) (s.elem b w (base + x.2)) sc
        (setAcc r.1 w x.1 x.2 u.1, r.2 ||| u.2)) (s.acc n, 0)
      .ok () ((s.setAccN n r.1).raiseRetained r.2).retire

/-- MOPA, major 0x30 (R193). -/
def execMopa (t : MxTy) (n : AccN) (a b : Reg) (mr mc : MReg) (grp : BitVec 3) (s : State) :
    Host.Outcome State Fault Refusal :=
  (s.mopa (mxForm t) (mxForm t) n a b mr mc grp).finish

/-- The mixed forms of MOPA, major 0x31 (R191, R193). -/
def execMopaMixed (t : MixTy) (n : AccN) (a b : Reg) (mr mc : MReg) (grp : BitVec 3) (s : State) :
    Host.Outcome State Fault Refusal :=
  (s.mopa (mixForms t).1 (mixForms t).2 n a b mr mc grp).finish

/-! ## ACCMOV (R195) -/

/-- The checks of ACCMOV and its extent: the enabled positions below min(VL, len), none without an effect. -/
def State.accmov (s : State) (n : AccN) (row : Bool) (i : Nat) (mc : MReg) (grp : BitVec 3)
    (f : Nat → List Nat → State → State) : Host.Outcome State Fault Refusal :=
  ((s.needAcc n).bind fun _ s =>
    let w := s.ewBits
    if w ≠ 32 ∧ w ≠ 64 then s.vectorState
    else
      let len := if row then 64 else viewRows w
      let m := min s.vlen len
      if m = 0 then .ok () s.retire
      else if (if row then viewRows w else 64) ≤ i then .trap (Trap.sync 0x09 0) s
      else (s.needGroup grp len).bind fun _ s => .ok () (f w (s.maskOn mc m) s).retire).finish

/-- Positions of an accumulator's row or column moved into v_d; at gives the element of a position. -/
def State.accToV (s : State) (n : AccN) (d : Reg) (grp : BitVec 3) (at_ : Nat → Nat × Nat) (w : Nat) (l : List Nat) :
    State :=
  s.setV d (l.foldl (fun v j => setElem v w (64 * grp.toNat + j) (accElem (s.acc n) w (at_ j).1 (at_ j).2)) (s.vreg d))

/-- Positions of v_a moved into an accumulator's row or column. -/
def State.vToAcc (s : State) (n : AccN) (a : Reg) (grp : BitVec 3) (at_ : Nat → Nat × Nat) (w : Nat) (l : List Nat) :
    State :=
  s.setAccN n (l.foldl (fun c j => setAcc c w (at_ j).1 (at_ j).2 (s.elem a w (64 * grp.toNat + j))) (s.acc n))

/-- ACCMOV.RV: row g_b to v_d (R195). -/
def execAccmovRv (n : AccN) (d b : Reg) (mc : MReg) (grp : BitVec 3) (s : State) : Host.Outcome State Fault Refusal :=
  let i := (s.readG b).toNat
  s.accmov n true i mc grp fun w l s => s.accToV n d grp (fun j => (i, j)) w l

/-- ACCMOV.CV: column g_b to v_d (R195). -/
def execAccmovCv (n : AccN) (d b : Reg) (mc : MReg) (grp : BitVec 3) (s : State) : Host.Outcome State Fault Refusal :=
  let i := (s.readG b).toNat
  s.accmov n false i mc grp fun w l s => s.accToV n d grp (fun j => (j, i)) w l

/-- ACCMOV.VR: v_a to row g_b (R195). -/
def execAccmovVr (n : AccN) (a b : Reg) (mc : MReg) (grp : BitVec 3) (s : State) : Host.Outcome State Fault Refusal :=
  let i := (s.readG b).toNat
  s.accmov n true i mc grp fun w l s => s.vToAcc n a grp (fun j => (i, j)) w l

/-- ACCMOV.VC: v_a to column g_b (R195). -/
def execAccmovVc (n : AccN) (a b : Reg) (mc : MReg) (grp : BitVec 3) (s : State) : Host.Outcome State Fault Refusal :=
  let i := (s.readG b).toNat
  s.accmov n false i mc grp fun w l s => s.vToAcc n a grp (fun j => (j, i)) w l

/-! ## Accumulator loads and stores (R197 to R200) -/

/-- The address of element (i, j) (R197). -/
def accAddr (a st : Word) (z i j : Nat) : Word := a + BitVec.ofNat 64 i * st + BitVec.ofNat 64 (j * z)

/-- Where the rows stopped: the row, and the trap of its failed check; none for a row that waits. -/
abbrev RowStop := Option (Nat × Option Trap)

/-- The rows in ascending order: a row's active elements are all checked before any is performed (R198). The stop, the
units performed, and the state. -/
def runRows (kind : AccKind) (z : Nat) (addrs : Nat → List Word) (prf : Nat → List (Word × Grant) → State → State) :
    List Nat → State → RowStop × List (Word × Grant) × State
  | [], s => (none, [], s)
  | i :: is, s =>
    match State.checkUnits kind z (addrs i) s with
    | .ok g s =>
      let r := runRows kind z addrs prf is (prf i g s)
      (r.1, g ++ r.2.1, r.2.2)
    | .trap t s => (some (i, some t), [], s)
    | .wait s => (some (i, none), [], s)

/-- The state in which a resumed instruction holds the translations of the row that TROW names, while that is active and still to be
performed (R198; log 112). -/
def State.holdRow (s : State) (kind : AccKind) (units : Nat → List Word) (active : List Nat) : State :=
  s.holdAll kind units (if s.me.resume then active.filter fun i => i == s.me.trow.toNat && decide (s.me.startRow ≤ i) else [])

/-- What an accumulator access comes to (R198 to R200): with ff, a failure above the lowest active row below
rows, among them those that an access resumed after a trap has done, trims VL (log 91). -/
def State.finishRows (s : State) (ff : Bool) (active : List Nat) (spans : List (Nat × Nat)) (stop : RowStop) : Res Unit :=
  match stop with
  | none => .ok () s
  | some (i, none) => .wait (s.keepPart (Vector.replicate 8 0) (BitVec.ofNat 6 i) spans)
  | some (i, some t) =>
    if ff && trimmable t && active.head? != some i then .ok () (s.mapMe fun x => { x with vl := i })
    else .trap { t with row := BitVec.ofNat 6 i } s

/-- The units that an accumulator store has performed, outstanding until they are acknowledged (R189, R209). -/
def State.accStoresOut (s : State) (n : AccN) (l : List (Word × Grant)) : List Outst :=
  if l.isEmpty then [] else
  [{ kind := .acc n.toNat, since := s.clock, addrs := l.map fun u => (u.1, u.2.leaves s.myTile) }]

/-- An accumulator load or store of view width w and z bytes an element: the enable check, nothing at VL = 0, the
alignment of base and stride, whose trap leaves the start row in TROW, then the rows, under the masks as they were when it began
(R81, R185, R186, R198; log 99, log 101). -/
def State.accMem (s : State) (n : AccN) (w z : Nat) (kind : AccKind) (ff : Bool) (a b : Reg) (mr mc : MReg)
    (prf : Nat → List Nat → List (Word × Grant) → State → State) : Host.Outcome State Fault Refusal :=
  ((s.needAcc n).bind fun _ s =>
    let rows := min s.vlen (viewRows w)
    let ga := s.readG a
    let st := s.readG b
    if rows = 0 then .ok () s.retire
    else if ga.toNat % z ≠ 0 ∨ st.toNat % z ≠ 0 then
      .trap { Trap.sync 0x03 ga with row := BitVec.ofNat 6 s.me.startRow } s
    else
      let cols := s.maskView.maskOn mc 64
      let active := s.maskView.maskOn mr rows
      let units (i : Nat) : List Word := cols.map fun j => accAddr ga st z i j
      let s := (s.beginPart 0).holdRow kind units active
      let r := runRows kind z units (fun i g s => (prf i cols g s).unhold i) (active.filter fun i => s.me.startRow ≤ i) s
      let spans := s.me.spansBegin ++
        if kind = .store then (s.writtenUnits [(0, r.2.1)]).map fun u => (8 * u.2.2.2.key, 8 * z) else []
      let out := if kind = .store then s.accStoresOut n r.2.1 else []
      let s' := ((s.oneDeferred r.2.2).unpoison (byteSpans spans)).mapMe fun x => { x with outst := x.outst ++ out }
      (s'.finishRows ff active spans r.1).retire).finish

/-- The elements of row i loaded; conv gives the bits that an element receives. -/
def State.loadRow (n : AccN) (w z : Nat) (conv : Nat → Nat) (i : Nat) :
    List Nat → List (Word × Grant) → State → State
  | j :: js, u :: us, s =>
    let x := s.loadUnit u z
    let s := x.2.setAccN n (setAcc (x.2.acc n) w i j (conv (x.1.getD 0)))
    State.loadRow n w z conv i js us s
  | _, _, s => s

/-- The elements of row i stored. -/
def State.storeRow (n : AccN) (w z : Nat) (i : Nat) : List Nat → List (Word × Grant) → State → State
  | j :: js, u :: us, s =>
    State.storeRow n w z i js us (s.perform s.ctx u.2 u.1 (leBytes z (accElem (s.acc n) w i j)))
  | _, _, s => s

/-- A BF16 code held as FP32; a NaN becomes the canonical one (R197). -/
def bf16ToF32 (x : Nat) : Nat := (fp32.round .rne (bf16.decode x)).1

/-- The elements of row i narrowed to BF16 and stored, m7 and the retained flags written (R197). -/
def State.storeRowBf16 (n : AccN) (i : Nat) : List Nat → List (Word × Grant) → State → State
  | j :: js, u :: us, s =>
    let y := bf16.sat .rne (fp32.decode (accElem (s.acc n) 32 i j))
    let s := s.perform s.ctx u.2 u.1 (leBytes 2 y.code)
    let s := (s.setM 7 (setBits (s.mask 7) [(64 * i + j, y.sat)])).raiseRetained y.flags
    State.storeRowBf16 n i js us s
  | _, _, s => s

/-- MLD.f32 (R197). -/
def execMldF32 (n : AccN) (a b : Reg) (mr mc : MReg) (s : State) : Host.Outcome State Fault Refusal :=
  s.accMem n 32 4 .load false a b mr mc fun i js g s => State.loadRow n 32 4 id i js g s

/-- MLD.f64 (R197). -/
def execMldF64 (n : AccN) (a b : Reg) (mr mc : MReg) (s : State) : Host.Outcome State Fault Refusal :=
  s.accMem n 64 8 .load false a b mr mc fun i js g s => State.loadRow n 64 8 id i js g s

/-- MLD.bf16 (R197). -/
def execMldBf16 (n : AccN) (a b : Reg) (mr mc : MReg) (s : State) : Host.Outcome State Fault Refusal :=
  s.accMem n 32 2 .load false a b mr mc fun i js g s => State.loadRow n 32 2 bf16ToF32 i js g s

/-- MLD.FF.f32 (R200). -/
def execMldFfF32 (n : AccN) (a b : Reg) (mr mc : MReg) (s : State) : Host.Outcome State Fault Refusal :=
  s.accMem n 32 4 .load true a b mr mc fun i js g s => State.loadRow n 32 4 id i js g s

/-- MLD.FF.f64 (R200). -/
def execMldFfF64 (n : AccN) (a b : Reg) (mr mc : MReg) (s : State) : Host.Outcome State Fault Refusal :=
  s.accMem n 64 8 .load true a b mr mc fun i js g s => State.loadRow n 64 8 id i js g s

/-- MST.f32 (R197). -/
def execMstF32 (n : AccN) (a b : Reg) (mr mc : MReg) (s : State) : Host.Outcome State Fault Refusal :=
  s.accMem n 32 4 .store false a b mr mc fun i js g s => State.storeRow n 32 4 i js g s

/-- MST.f64 (R197). -/
def execMstF64 (n : AccN) (a b : Reg) (mr mc : MReg) (s : State) : Host.Outcome State Fault Refusal :=
  s.accMem n 64 8 .store false a b mr mc fun i js g s => State.storeRow n 64 8 i js g s

/-- MST.bf16 (R197). -/
def execMstBf16 (n : AccN) (a b : Reg) (mr mc : MReg) (s : State) : Host.Outcome State Fault Refusal :=
  s.accMem n 32 2 .store false a b mr mc fun i js g s => State.storeRowBf16 n i js g s

end Sys2Proof.Machine
end

