-- ==== Sys2Proof/Decode.lean ====
section
/-!
DEFINITION. The instruction words: decoding (R105 to R112, R158, R165) and the encoder. Decoding answers for every word;
a word that is not an instruction is rejected by the reason that R108 gives. Lean's compiler cannot build values of an
inductive with this many constructors, so the functions that answer with one are marked noncomputable; the kernel
evaluates them as it does any other.
-/

namespace Sys2Proof

open Machine

/-- Why a word is illegal (R108). -/
inductive Reject where
  /-- its major is 0x00, 0x2B, 0x3B or 0x3C to 0x3F -/
  | major
  /-- its minor, function or op is assigned by no entry of its major -/
  | minor
  /-- a field that the entry names reserved is nonzero -/
  | reserved
  /-- a field that the instruction does not use is nonzero -/
  | unused
  /-- a 5-bit field that names a mask register, or one that names a scope register, is out of range -/
  | maskReg
  /-- a reserved type or width code -/
  | typeCode
  /-- a segment form that would run past v31 -/
  | segment
deriving DecidableEq, Repr

/-- What a word decodes to. -/
inductive Decoded where
  | ok (i : Instr)
  | reject (r : Reject)
deriving DecidableEq, Repr

/-! ## Type and width codes (R98, R112, R154, R157, R158, R165, R191, R208) -/

/-- The code of each type of IntTy. -/
def intTyCode : IntTy → BitVec 3
  | .s64 => 0 | .s32 => 1 | .s16 => 2 | .s8 => 3 | .n64 => 4 | .n32 => 5 | .n16 => 6 | .n8 => 7

/-- The type of IntTy that a code names. -/
def intTyOf (c : BitVec 3) : IntTy :=
  match c.toNat with
  | 0 => .s64 | 1 => .s32 | 2 => .s16 | 3 => .s8 | 4 => .n64 | 5 => .n32 | 6 => .n16 | _ => .n8

/-- The code of each type of FTy. -/
def fTyCode : FTy → BitVec 3
  | .f64 => 0 | .f32 => 1 | .bf16 => 3 | .f16 => 4

/-- The type of FTy that a code names. -/
def fTyOf (c : BitVec 3) : Option FTy :=
  match c.toNat with
  | 0 => some .f64 | 1 => some .f32 | 3 => some .bf16 | 4 => some .f16 | _ => none

/-- The code of each type of FWTy. -/
def fwTyCode : FWTy → BitVec 3
  | .f32 => 1 | .bf16 => 3 | .f16 => 4

/-- The type of FWTy that a code names. -/
def fwTyOf (c : BitVec 3) : Option FWTy :=
  match c.toNat with
  | 1 => some .f32 | 3 => some .bf16 | 4 => some .f16 | _ => none

/-- The code of each type of WIntTy. -/
def wIntTyCode : WIntTy → BitVec 3
  | .s32 => 1 | .s16 => 2 | .s8 => 3 | .n32 => 5 | .n16 => 6 | .n8 => 7

/-- The type of WIntTy that a code names. -/
def wIntTyOf (c : BitVec 3) : Option WIntTy :=
  match c.toNat with
  | 1 => some .s32 | 2 => some .s16 | 3 => some .s8 | 5 => some .n32 | 6 => some .n16 | 7 => some .n8 | _ => none

/-- The code of each type of ByteTy. -/
def byteTyCode : ByteTy → BitVec 3
  | .s8 => 3 | .n8 => 7

/-- The type of ByteTy that a code names. -/
def byteTyOf (c : BitVec 3) : Option ByteTy :=
  match c.toNat with
  | 3 => some .s8 | 7 => some .n8 | _ => none

/-- The code of each type of DotTy. -/
def dotTyCode : DotTy → BitVec 3
  | .bf16 => 3 | .f16 => 4 | .e5m2 => 5 | .e4m3 => 6

/-- The type of DotTy that a code names. -/
def dotTyOf (c : BitVec 3) : Option DotTy :=
  match c.toNat with
  | 3 => some .bf16 | 4 => some .f16 | 5 => some .e5m2 | 6 => some .e4m3 | _ => none

/-- The code of each type of Width. -/
def wCode : Width → BitVec 3
  | .w8 => 0 | .w16 => 1 | .w32 => 2 | .w64 => 3 | .w4 => 4 | .w6 => 5

/-- The type of Width that a code names. -/
def widthOf (c : BitVec 3) : Option Width :=
  match c.toNat with
  | 0 => some .w8 | 1 => some .w16 | 2 => some .w32 | 3 => some .w64 | 4 => some .w4 | 5 => some .w6 | _ => none

/-- The code of each type of Width4. -/
def width4Code : Width4 → BitVec 3
  | .w8 => 0 | .w16 => 1 | .w32 => 2 | .w64 => 3

/-- The type of Width4 that a code names. -/
def width4Of (c : BitVec 3) : Option Width4 :=
  match c.toNat with
  | 0 => some .w8 | 1 => some .w16 | 2 => some .w32 | 3 => some .w64 | _ => none

/-- The code of each type of SendW. -/
def sendWCode : SendW → BitVec 3
  | .w32 => 2 | .w64 => 3

/-- The type of SendW that a code names. -/
def sendWOf (c : BitVec 3) : Option SendW :=
  match c.toNat with
  | 2 => some .w32 | 3 => some .w64 | _ => none

/-- The code of each type of VlwTy. -/
def vlwTyCode : VlwTy → BitVec 3
  | .e4m3 => 0 | .e2m1 => 4

/-- The type of VlwTy that a code names. -/
def vlwTyOf (c : BitVec 3) : Option VlwTy :=
  match c.toNat with
  | 0 => some .e4m3 | 4 => some .e2m1 | _ => none

/-- The code of each type of MxTy. -/
def mxTyCode : MxTy → BitVec 4
  | .f64 => 0 | .f32 => 1 | .tf32 => 2 | .bf16 => 3 | .f16 => 4 | .e5m2 => 5 | .e4m3 => 6 | .e3m2 => 7 | .e2m3 => 8 | .e2m1 => 9 | .s8 => 10 | .n8 => 11

/-- The type of MxTy that a code names. -/
def mxTyOf (c : BitVec 4) : Option MxTy :=
  match c.toNat with
  | 0 => some .f64 | 1 => some .f32 | 2 => some .tf32 | 3 => some .bf16 | 4 => some .f16 | 5 => some .e5m2 | 6 => some .e4m3 | 7 => some .e3m2 | 8 => some .e2m3 | 9 => some .e2m1 | 10 => some .s8 | 11 => some .n8 | _ => none

/-- The code of each type of MixTy. -/
def mixTyCode : MixTy → BitVec 4
  | .s8n8 => 0 | .n8s8 => 1 | .e5m2e4m3 => 2 | .e4m3e5m2 => 3

/-- The type of MixTy that a code names. -/
def mixTyOf (c : BitVec 4) : Option MixTy :=
  match c.toNat with
  | 0 => some .s8n8 | 1 => some .n8s8 | 2 => some .e5m2e4m3 | 3 => some .e4m3e5m2 | _ => none

/-- The code of each type of WCond. -/
def condCode : WCond → BitVec 2
  | .eq => 0 | .ne => 1 | .geu => 2 | .ltu => 3

/-- The type of WCond that a code names. -/
def condOf (c : BitVec 2) : WCond :=
  match c.toNat with
  | 0 => .eq | 1 => .ne | 2 => .geu | _ => .ltu

/-- The code of each type of Ord4. -/
def ordCode : Ord4 → BitVec 2
  | .none => 0 | .aq => 1 | .rl => 2 | .aqrl => 3

/-- The type of Ord4 that a code names. -/
def ordOf (c : BitVec 2) : Ord4 :=
  match c.toNat with
  | 0 => .none | 1 => .aq | 2 => .rl | _ => .aqrl

/-- The code of a floating format of a conversion. -/
def cvtFCode : CvtF → BitVec 4
  | .f64 => 0 | .tf32 => 1 | .bf16 => 2 | .f16 => 3 | .e5m2 => 4 | .e4m3 => 5 | .e3m2 => 6 | .e2m3 => 7 | .e2m1 => 8

/-- The floating format that a code names. -/
def cvtFOf (c : BitVec 4) : Option CvtF :=
  match c.toNat with
  | 0 => some .f64 | 1 => some .tf32 | 2 => some .bf16 | 3 => some .f16 | 4 => some .e5m2 | 5 => some .e4m3
  | 6 => some .e3m2 | 7 => some .e2m3 | 8 => some .e2m1 | _ => none

/-- The integer code of a conversion: another order than R98's (R158). -/
def cvtICode : IntTy → BitVec 3
  | .s64 => 0 | .n64 => 1 | .s32 => 2 | .n32 => 3 | .s16 => 4 | .n16 => 5 | .s8 => 6 | .n8 => 7

/-- The integer type that a conversion's code names. -/
def cvtIOf (c : BitVec 3) : IntTy :=
  match c.toNat with
  | 0 => .s64 | 1 => .n64 | 2 => .s32 | 3 => .n32 | 4 => .s16 | 5 => .n16 | 6 => .s8 | _ => .n8

/-- The destination code of an integer-to-integer conversion. -/
def cvtDCode : CvtD → BitVec 3
  | .wide => 0 | .narrow => 1 | .flip => 2 | .flipNarrow => 3 | .s4 => 4 | .n4 => 5 | .s6 => 6 | .n6 => 7

/-- The destination that a code names. -/
def cvtDOf (c : BitVec 3) : CvtD :=
  match c.toNat with
  | 0 => .wide | 1 => .narrow | 2 => .flip | 3 => .flipNarrow | 4 => .s4 | 5 => .n4 | 6 => .s6 | _ => .n6

/-- Whether a conversion names a destination: twice 64 bits does not exist, and half of 8 bits has codes of its own. -/
def CvtOp.legal : CvtOp → Bool
  | .iToI i .wide => i != .s64 && i != .n64
  | .iToI i .narrow => i != .s8 && i != .n8
  | .iToI i .flipNarrow => i != .s8 && i != .n8
  | _ => true

/-- The bit that says which of FP64 (0) and FP32 (1) a conversion reads or writes (R158). -/
def cvtPCode : FPrec → BitVec 1
  | .f64 => 0 | .f32 => 1

/-- The precision that the bit names. -/
def cvtPOf (b : Bool) : FPrec := if b then .f32 else .f64

/-- The func field of a conversion (R158). -/
def cvtCode : CvtOp → BitVec 7
  | .fromF32 x => 0#3 ++ cvtFCode x
  | .toF32 x => 1#3 ++ cvtFCode x
  | .fToI p i => 2#3 ++ cvtPCode p ++ cvtICode i
  | .iToF p i => 3#3 ++ cvtPCode p ++ cvtICode i
  | .iToI i d => 1#1 ++ cvtICode i ++ cvtDCode d

/-- The conversion that a func field names. -/
def cvtOf (c : BitVec 7) : Option CvtOp :=
  if c.getLsbD 6 then
    let f : CvtOp := .iToI (cvtIOf (c.extractLsb' 3 3)) (cvtDOf (c.extractLsb' 0 3))
    if f.legal then some f else none
  else if c.getLsbD 5 then
    if c.getLsbD 4 then some (.iToF (cvtPOf (c.getLsbD 3)) (cvtIOf (c.extractLsb' 0 3)))
    else some (.fToI (cvtPOf (c.getLsbD 3)) (cvtIOf (c.extractLsb' 0 3)))
  else if c.getLsbD 4 then (cvtFOf (c.extractLsb' 0 4)).map .toF32
  else (cvtFOf (c.extractLsb' 0 4)).map .fromF32

/-- The precision bit of a scalar floating word (R127). -/
def precBit : FPrec → BitVec 1
  | .f64 => 0 | .f32 => 1

/-! ## Fields of a word (R106) -/

/-- Bits [25:21]. -/
def rd (w : IWord) : Reg := w.extractLsb' 21 5
/-- Bits [20:16]. -/
def ra (w : IWord) : Reg := w.extractLsb' 16 5
/-- Bits [15:11]. -/
def rb (w : IWord) : Reg := w.extractLsb' 11 5
/-- Bits [15:0]. -/
def imm16 (w : IWord) : BitVec 16 := w.extractLsb' 0 16
/-- The mask fields of a V or VM word. -/
def vk (w : IWord) : VMask := { on := w.getLsbD 10, num := w.extractLsb' 7 3 }
/-- The type or width field of a V or VM word. -/
def vty (w : IWord) : BitVec 3 := w.extractLsb' 0 3
/-- va of an MX word. -/
def mxA (w : IWord) : Reg := w.extractLsb' 18 5
/-- vb of an MX word. -/
def mxB (w : IWord) : Reg := w.extractLsb' 13 5
/-- mr of an MX word. -/
def mxR (w : IWord) : MReg := w.extractLsb' 10 3
/-- grp of an MX word. -/
def mxG (w : IWord) : BitVec 3 := w.extractLsb' 4 3
/-- The precision of a scalar floating word. -/
def prec (w : IWord) : FPrec := if w.getLsbD 0 then .f32 else .f64
/-- The qualifiers of an atomic (R112). -/
def qual (w : IWord) : AmoQual :=
  { ord := ordOf (w.extractLsb' 9 2), dbl := w.getLsbD 8, scope := w.extractLsb' 4 4 }

/-! ## The checks of R108 -/

/-- k, if the field is zero. -/
def unused {n : Nat} (x : BitVec n) (k : Decoded) : Decoded := if x = 0 then k else .reject .unused
/-- k, if [25:21] is zero. -/
def noD (w : IWord) (k : Decoded) : Decoded := unused (rd w) k
/-- k, if [20:16] is zero. -/
def noA (w : IWord) (k : Decoded) : Decoded := unused (ra w) k
/-- k, if [15:11] is zero. -/
def noB (w : IWord) (k : Decoded) : Decoded := unused (rb w) k
/-- k, if me and mk are zero. -/
def noMask (w : IWord) (k : Decoded) : Decoded := unused (w.extractLsb' 7 4) k
/-- k, if the type field is zero. -/
def noTy (w : IWord) (k : Decoded) : Decoded := unused (vty w) k
/-- k, if me is one. -/
def needMask (w : IWord) (k : Decoded) : Decoded := if w.getLsbD 10 then k else .reject .minor
/-- k, if the reserved ga of LUI and ADDPC is zero. -/
def reservedA (w : IWord) (k : Decoded) : Decoded := if ra w = 0 then k else .reject .reserved
/-- k on the mask register that a 5-bit field names. -/
def maskReg (r : Reg) (k : MReg → Decoded) : Decoded := if r.toNat < 8 then k (r.setWidth 3) else .reject .maskReg
/-- k on the scope register that gc names. -/
def scopeReg (r : Reg) (k : BitVec 4 → Decoded) : Decoded := if r.toNat < 16 then k (r.setWidth 4) else .reject .maskReg
/-- k on the type that a code names. -/
def typed {α : Type} (t : Option α) (k : α → Decoded) : Decoded :=
  match t with
  | some t => k t
  | none => .reject .typeCode
/-- k on the rounding bit of FCVTI and FCVTIU, held in gb (R129). -/
def roundBit (w : IWord) (k : Bool → Decoded) : Decoded :=
  if (rb w).toNat < 2 then k ((rb w).getLsbD 0) else .reject .reserved
/-- k, unless SCOPE is nonzero with no ordering. -/
def scopeOk (w : IWord) (k : Decoded) : Decoded :=
  if field w 9 2 = 0 ∧ field w 4 4 ≠ 0 then .reject .reserved else k
/-- k on the number of further fields of a segment word, which ends at v31 at the latest (R165). -/
def segment (w : IWord) (k : BitVec 3 → Decoded) : Decoded :=
  if field w 3 3 = 0 then .reject .minor
  else if 32 ≤ (rd w).toNat + field w 3 3 then .reject .segment
  else k (w.extractLsb' 3 3)

/-! ## Decoding -/

/-- Major 0x01. -/
def decode01 (w : IWord) : Decoded :=
  match field w 0 11 with
  | 0x000 => .ok (.add (rd w) (ra w) (rb w))
  | 0x001 => .ok (.sub (rd w) (ra w) (rb w))
  | 0x002 => .ok (.and (rd w) (ra w) (rb w))
  | 0x003 => .ok (.or (rd w) (ra w) (rb w))
  | 0x004 => .ok (.xor (rd w) (ra w) (rb w))
  | 0x005 => .ok (.nor (rd w) (ra w) (rb w))
  | 0x006 => .ok (.andn (rd w) (ra w) (rb w))
  | 0x007 => .ok (.orn (rd w) (ra w) (rb w))
  | 0x008 => .ok (.sll (rd w) (ra w) (rb w))
  | 0x009 => .ok (.srl (rd w) (ra w) (rb w))
  | 0x00A => .ok (.sra (rd w) (ra w) (rb w))
  | 0x00B => .ok (.ror (rd w) (ra w) (rb w))
  | 0x00C => .ok (.setlt (rd w) (ra w) (rb w))
  | 0x00D => .ok (.setltn (rd w) (ra w) (rb w))
  | 0x00E => .ok (.seteq (rd w) (ra w) (rb w))
  | 0x00F => .ok (.setne (rd w) (ra w) (rb w))
  | 0x010 => .ok (.min (rd w) (ra w) (rb w))
  | 0x011 => .ok (.max (rd w) (ra w) (rb w))
  | 0x012 => .ok (.minu (rd w) (ra w) (rb w))
  | 0x013 => .ok (.maxu (rd w) (ra w) (rb w))
  | 0x014 => .ok (.add32 (rd w) (ra w) (rb w))
  | 0x015 => .ok (.sub32 (rd w) (ra w) (rb w))
  | 0x016 => .ok (.sll32 (rd w) (ra w) (rb w))
  | 0x017 => .ok (.srl32 (rd w) (ra w) (rb w))
  | 0x018 => .ok (.sra32 (rd w) (ra w) (rb w))
  | 0x019 => .ok (.addo (rd w) (ra w) (rb w))
  | 0x01A => .ok (.subo (rd w) (ra w) (rb w))
  | 0x01B => .ok (.addsc1 (rd w) (ra w) (rb w))
  | 0x01C => .ok (.addsc2 (rd w) (ra w) (rb w))
  | 0x01D => .ok (.addsc3 (rd w) (ra w) (rb w))
  | _ => .reject .minor

/-- Major 0x02. -/
def decode02 (w : IWord) : Decoded :=
  match field w 0 11 with
  | 0x000 => .ok (.mul (rd w) (ra w) (rb w))
  | 0x001 => .ok (.mulhs (rd w) (ra w) (rb w))
  | 0x002 => .ok (.mulhn (rd w) (ra w) (rb w))
  | 0x003 => .ok (.mulhsn (rd w) (ra w) (rb w))
  | 0x004 => .ok (.mul32 (rd w) (ra w) (rb w))
  | 0x005 => .ok (.divs (rd w) (ra w) (rb w))
  | 0x006 => .ok (.divn (rd w) (ra w) (rb w))
  | 0x007 => .ok (.rems (rd w) (ra w) (rb w))
  | 0x008 => .ok (.remn (rd w) (ra w) (rb w))
  | 0x009 => .ok (.divs32 (rd w) (ra w) (rb w))
  | 0x00A => .ok (.divn32 (rd w) (ra w) (rb w))
  | 0x00B => .ok (.rems32 (rd w) (ra w) (rb w))
  | 0x00C => .ok (.remn32 (rd w) (ra w) (rb w))
  | _ => .reject .minor

/-- Major 0x03. -/
def decode03 (w : IWord) : Decoded :=
  match field w 0 11 with
  | 0x000 => noB w <| .ok (.clz (rd w) (ra w))
  | 0x001 => noB w <| .ok (.ctz (rd w) (ra w))
  | 0x002 => noB w <| .ok (.popc (rd w) (ra w))
  | 0x003 => noB w <| .ok (.brev (rd w) (ra w))
  | 0x004 => noB w <| .ok (.bswap (rd w) (ra w))
  | 0x005 => .ok (.extS (rd w) (ra w) (rb w))
  | 0x006 => .ok (.extU (rd w) (ra w) (rb w))
  | 0x007 => .ok (.ins (rd w) (ra w) (rb w))
  | 0x008 => noB w <| .ok (.clz32 (rd w) (ra w))
  | 0x009 => noB w <| .ok (.ctz32 (rd w) (ra w))
  | 0x00A => noB w <| .ok (.popc32 (rd w) (ra w))
  | 0x00B => noB w <| .ok (.bswap32 (rd w) (ra w))
  | _ => .reject .minor

/-- Major 0x0A: imm[15:8] is reserved, imm[7:6] is the kind. -/
def decode0A (w : IWord) : Decoded :=
  match field w 6 10 with
  | 0 => .ok (.slli (rd w) (ra w) (w.extractLsb' 0 6))
  | 1 => .ok (.srli (rd w) (ra w) (w.extractLsb' 0 6))
  | 2 => .ok (.srai (rd w) (ra w) (w.extractLsb' 0 6))
  | 3 => .ok (.rori (rd w) (ra w) (w.extractLsb' 0 6))
  | _ => .reject .reserved

/-- Major 0x0E: the precision is the low bit of the minor (R127). -/
def decode0E (w : IWord) : Decoded :=
  match field w 1 10 with
  | 0x00 => .ok (.fadd (prec w) (rd w) (ra w) (rb w))
  | 0x01 => .ok (.fsub (prec w) (rd w) (ra w) (rb w))
  | 0x02 => .ok (.fmul (prec w) (rd w) (ra w) (rb w))
  | 0x03 => .ok (.fdiv (prec w) (rd w) (ra w) (rb w))
  | 0x04 => noB w <| .ok (.fsqrt (prec w) (rd w) (ra w))
  | 0x05 => .ok (.fmin (prec w) (rd w) (ra w) (rb w))
  | 0x06 => .ok (.fmax (prec w) (rd w) (ra w) (rb w))
  | 0x07 => .ok (.fmac (prec w) (rd w) (ra w) (rb w))
  | 0x08 => .ok (.fmsc (prec w) (rd w) (ra w) (rb w))
  | 0x09 => .ok (.fcmpeq (prec w) (rd w) (ra w) (rb w))
  | 0x0A => .ok (.fcmplt (prec w) (rd w) (ra w) (rb w))
  | 0x0B => .ok (.fcmple (prec w) (rd w) (ra w) (rb w))
  | 0x0C => noB w <| .ok (.fkind (prec w) (rd w) (ra w))
  | 0x0D => roundBit w fun r => .ok (.fcvti (prec w) r (rd w) (ra w))
  | 0x0E => roundBit w fun r => .ok (.fcvtiu (prec w) r (rd w) (ra w))
  | 0x0F => noB w <| .ok (.fcvtf (prec w) (rd w) (ra w))
  | 0x10 => noB w <| .ok (.fcvtfu (prec w) (rd w) (ra w))
  | 0x11 => noB w <| .ok (.fcvtp (prec w) (rd w) (ra w))
  | 0x12 => .ok (.fcopys (prec w) (rd w) (ra w) (rb w))
  | 0x13 => .ok (.fcopysn (prec w) (rd w) (ra w) (rb w))
  | _ => .reject .minor

/-- Major 0x1D: gd is 0 or 1. -/
def decode1D (w : IWord) : Decoded :=
  match field w 21 5 with
  | 0 => .ok (.prfRd (ra w) (imm16 w))
  | 1 => .ok (.prfWr (ra w) (imm16 w))
  | _ => .reject .reserved

/-- Major 0x1E. -/
def decode1E (w : IWord) : Decoded :=
  match field w 0 11 with
  | 0x000 => .ok (.lb (rd w) (ra w) (rb w))
  | 0x001 => .ok (.lbu (rd w) (ra w) (rb w))
  | 0x002 => .ok (.lh (rd w) (ra w) (rb w))
  | 0x003 => .ok (.lhu (rd w) (ra w) (rb w))
  | 0x004 => .ok (.sb (rd w) (ra w) (rb w))
  | 0x005 => .ok (.sh (rd w) (ra w) (rb w))
  | _ => .reject .minor

/-- Major 0x1F (R112): a SCOPE with no ordering is zero. -/
def decode1F (w : IWord) : Decoded :=
  match field w 0 4 with
  | 0 => scopeOk w <| noB w <| .ok (.lr (qual w) (rd w) (ra w))
  | 1 => scopeOk w <| .ok (.sc (qual w) (rd w) (ra w) (rb w))
  | 2 => scopeOk w <| .ok (.amoswap (qual w) (rd w) (ra w) (rb w))
  | 3 => scopeOk w <| .ok (.amoadd (qual w) (rd w) (ra w) (rb w))
  | 4 => scopeOk w <| .ok (.amoand (qual w) (rd w) (ra w) (rb w))
  | 5 => scopeOk w <| .ok (.amoor (qual w) (rd w) (ra w) (rb w))
  | 6 => scopeOk w <| .ok (.amoxor (qual w) (rd w) (ra w) (rb w))
  | 7 => scopeOk w <| .ok (.amomin (qual w) (rd w) (ra w) (rb w))
  | 8 => scopeOk w <| .ok (.amomax (qual w) (rd w) (ra w) (rb w))
  | 9 => scopeOk w <| .ok (.amominu (qual w) (rd w) (ra w) (rb w))
  | 10 => scopeOk w <| .ok (.amomaxu (qual w) (rd w) (ra w) (rb w))
  | 11 => scopeOk w <| .ok (.amocas (qual w) (rd w) (ra w) (rb w))
  | _ => .reject .minor

/-- Major 0x20. -/
def decode20 (w : IWord) : Decoded :=
  match field w 3 4 with
  | 0 => noB w <| noMask w <| typed (widthOf (vty w)) fun t => .ok (.setvl t (rd w) (ra w))
  | 1 => noB w <| .ok (.vsplat (intTyOf (vty w)) (rd w) (ra w) (vk w))
  | 2 => noMask w <| .ok (.vmvg (intTyOf (vty w)) (rd w) (ra w) (rb w))
  | 3 => noMask w <| .ok (.vmvv (intTyOf (vty w)) (rd w) (ra w) (rb w))
  | 4 => noA w <| noB w <| .ok (.vid (intTyOf (vty w)) (rd w) (vk w))
  | 5 => noB w <| .ok (.vmv (intTyOf (vty w)) (rd w) (ra w) (vk w))
  | 6 => needMask w <| .ok (.vmerge (intTyOf (vty w)) (rd w) (ra w) (rb w) (w.extractLsb' 7 3))
  | _ => .reject .minor

/-- Major 0x21. -/
def decode21 (w : IWord) : Decoded :=
  match field w 3 4 with
  | 0 => maskReg (rd w) fun d => maskReg (ra w) fun a => maskReg (rb w) fun b => noMask w <| noTy w <| .ok (.mand d a b)
  | 1 => maskReg (rd w) fun d => maskReg (ra w) fun a => maskReg (rb w) fun b => noMask w <| noTy w <| .ok (.mor d a b)
  | 2 => maskReg (rd w) fun d => maskReg (ra w) fun a => maskReg (rb w) fun b => noMask w <| noTy w <| .ok (.mxor d a b)
  | 3 => maskReg (rd w) fun d => maskReg (ra w) fun a => maskReg (rb w) fun b => noMask w <| noTy w <| .ok (.mandn d a b)
  | 4 => maskReg (rd w) fun d => maskReg (ra w) fun a => maskReg (rb w) fun b => noMask w <| noTy w <| .ok (.morn d a b)
  | 5 => maskReg (rd w) fun d => maskReg (ra w) fun a => noB w <| noMask w <| noTy w <| .ok (.mnot d a)
  | 6 => maskReg (rd w) fun d => noA w <| noB w <| noMask w <| noTy w <| .ok (.mset d)
  | 7 => maskReg (rd w) fun d => noA w <| noB w <| noMask w <| noTy w <| .ok (.mclr d)
  | 8 => maskReg (ra w) fun a => noB w <| noTy w <| .ok (.vffs (rd w) a (vk w))
  | 9 => maskReg (ra w) fun a => noB w <| noTy w <| .ok (.vpopc (rd w) a (vk w))
  | 10 => maskReg (ra w) fun a => noB w <| .ok (.vmprefix (intTyOf (vty w)) (rd w) a (vk w))
  | _ => .reject .minor

/-- Major 0x22. -/
def decode22 (w : IWord) : Decoded :=
  match field w 3 4 with
  | 0 => .ok (.vshup (intTyOf (vty w)) (rd w) (ra w) (rb w) (vk w))
  | 1 => .ok (.vshdn (intTyOf (vty w)) (rd w) (ra w) (rb w) (vk w))
  | 2 => .ok (.vperm (intTyOf (vty w)) (rd w) (ra w) (rb w) (vk w))
  | 3 => noB w <| needMask w <| .ok (.vpackm (intTyOf (vty w)) (rd w) (ra w) (w.extractLsb' 7 3))
  | 4 => noMask w <| .ok (.vreshape (intTyOf (vty w)) (rd w) (ra w) (rb w))
  | 5 => .ok (.vbcast (intTyOf (vty w)) (rd w) (ra w) (rb w) (vk w))
  | _ => .reject .minor

/-- Major 0x23. -/
def decode23 (w : IWord) : Decoded :=
  match field w 3 4 with
  | 0 => .ok (.vadd (intTyOf (vty w)) (rd w) (ra w) (rb w) (vk w))
  | 1 => .ok (.vsub (intTyOf (vty w)) (rd w) (ra w) (rb w) (vk w))
  | 2 => .ok (.vmul (intTyOf (vty w)) (rd w) (ra w) (rb w) (vk w))
  | 3 => .ok (.vmulh (intTyOf (vty w)) (rd w) (ra w) (rb w) (vk w))
  | 4 => .ok (.vdiv (intTyOf (vty w)) (rd w) (ra w) (rb w) (vk w))
  | 5 => .ok (.vrem (intTyOf (vty w)) (rd w) (ra w) (rb w) (vk w))
  | 6 => .ok (.vmin (intTyOf (vty w)) (rd w) (ra w) (rb w) (vk w))
  | 7 => .ok (.vmax (intTyOf (vty w)) (rd w) (ra w) (rb w) (vk w))
  | 8 => .ok (.vand (intTyOf (vty w)) (rd w) (ra w) (rb w) (vk w))
  | 9 => .ok (.vor (intTyOf (vty w)) (rd w) (ra w) (rb w) (vk w))
  | 10 => .ok (.vxor (intTyOf (vty w)) (rd w) (ra w) (rb w) (vk w))
  | 11 => .ok (.vsll (intTyOf (vty w)) (rd w) (ra w) (rb w) (vk w))
  | 12 => .ok (.vsr (intTyOf (vty w)) (rd w) (ra w) (rb w) (vk w))
  | 13 => .ok (.vadds (intTyOf (vty w)) (rd w) (ra w) (rb w) (vk w))
  | 14 => .ok (.vsubs (intTyOf (vty w)) (rd w) (ra w) (rb w) (vk w))
  | 15 => .ok (.vmac (intTyOf (vty w)) (rd w) (ra w) (rb w) (vk w))
  | _ => .reject .minor

/-- Major 0x24. -/
def decode24 (w : IWord) : Decoded :=
  match field w 3 4 with
  | 0 => maskReg (rd w) fun d => .ok (.vseq (intTyOf (vty w)) d (ra w) (rb w) (vk w))
  | 1 => maskReg (rd w) fun d => .ok (.vsne (intTyOf (vty w)) d (ra w) (rb w) (vk w))
  | 2 => maskReg (rd w) fun d => .ok (.vslt (intTyOf (vty w)) d (ra w) (rb w) (vk w))
  | 3 => maskReg (rd w) fun d => .ok (.vsle (intTyOf (vty w)) d (ra w) (rb w) (vk w))
  | 4 => maskReg (rd w) fun d => .ok (.vsgt (intTyOf (vty w)) d (ra w) (rb w) (vk w))
  | 5 => maskReg (rd w) fun d => .ok (.vsge (intTyOf (vty w)) d (ra w) (rb w) (vk w))
  | _ => .reject .minor

/-- Major 0x25. -/
def decode25 (w : IWord) : Decoded :=
  match field w 3 4 with
  | 0 => typed (fTyOf (vty w)) fun t => .ok (.vfadd t (rd w) (ra w) (rb w) (vk w))
  | 1 => typed (fTyOf (vty w)) fun t => .ok (.vfsub t (rd w) (ra w) (rb w) (vk w))
  | 2 => typed (fTyOf (vty w)) fun t => .ok (.vfmul t (rd w) (ra w) (rb w) (vk w))
  | 3 => typed (fTyOf (vty w)) fun t => .ok (.vfdiv t (rd w) (ra w) (rb w) (vk w))
  | 4 => noB w <| typed (fTyOf (vty w)) fun t => .ok (.vfsqrt t (rd w) (ra w) (vk w))
  | 5 => typed (fTyOf (vty w)) fun t => .ok (.vfmin t (rd w) (ra w) (rb w) (vk w))
  | 6 => typed (fTyOf (vty w)) fun t => .ok (.vfmax t (rd w) (ra w) (rb w) (vk w))
  | 7 => typed (fTyOf (vty w)) fun t => .ok (.vfmac t (rd w) (ra w) (rb w) (vk w))
  | 8 => typed (fTyOf (vty w)) fun t => .ok (.vfmsc t (rd w) (ra w) (rb w) (vk w))
  | 9 => typed (fTyOf (vty w)) fun t => .ok (.vfcopys t (rd w) (ra w) (rb w) (vk w))
  | 10 => typed (fTyOf (vty w)) fun t => .ok (.vfcopysn t (rd w) (ra w) (rb w) (vk w))
  | _ => .reject .minor

/-- Major 0x26. -/
def decode26 (w : IWord) : Decoded :=
  match field w 3 4 with
  | 0 => maskReg (rd w) fun d => typed (fTyOf (vty w)) fun t => .ok (.vfcmpeq t d (ra w) (rb w) (vk w))
  | 1 => maskReg (rd w) fun d => typed (fTyOf (vty w)) fun t => .ok (.vfcmpne t d (ra w) (rb w) (vk w))
  | 2 => maskReg (rd w) fun d => typed (fTyOf (vty w)) fun t => .ok (.vfcmplt t d (ra w) (rb w) (vk w))
  | 3 => maskReg (rd w) fun d => typed (fTyOf (vty w)) fun t => .ok (.vfcmple t d (ra w) (rb w) (vk w))
  | 4 => noB w <| typed (fTyOf (vty w)) fun t => .ok (.vfkind t (rd w) (ra w) (vk w))
  | _ => .reject .minor

/-- Major 0x27. -/
def decode27 (w : IWord) : Decoded :=
  noB w <| typed (cvtOf (w.extractLsb' 0 7)) fun f => .ok (.vcvt f (rd w) (ra w) (vk w))

/-- Major 0x28. -/
def decode28 (w : IWord) : Decoded :=
  match field w 3 4 with
  | 0 => .ok (.vredAdd (intTyOf (vty w)) (rd w) (ra w) (rb w) (vk w))
  | 1 => .ok (.vredMin (intTyOf (vty w)) (rd w) (ra w) (rb w) (vk w))
  | 2 => .ok (.vredMax (intTyOf (vty w)) (rd w) (ra w) (rb w) (vk w))
  | 3 => .ok (.vredAnd (intTyOf (vty w)) (rd w) (ra w) (rb w) (vk w))
  | 4 => .ok (.vredOr (intTyOf (vty w)) (rd w) (ra w) (rb w) (vk w))
  | 5 => .ok (.vredXor (intTyOf (vty w)) (rd w) (ra w) (rb w) (vk w))
  | 6 => typed (fTyOf (vty w)) fun t => .ok (.vfredTree t (rd w) (ra w) (rb w) (vk w))
  | 7 => typed (fTyOf (vty w)) fun t => .ok (.vfredSeq t (rd w) (ra w) (rb w) (vk w))
  | 8 => typed (fTyOf (vty w)) fun t => .ok (.vfredMin t (rd w) (ra w) (rb w) (vk w))
  | 9 => typed (fTyOf (vty w)) fun t => .ok (.vfredMax t (rd w) (ra w) (rb w) (vk w))
  | 10 => .ok (.vscan (intTyOf (vty w)) (rd w) (ra w) (rb w) (vk w))
  | 11 => typed (fTyOf (vty w)) fun t => .ok (.vfscan t (rd w) (ra w) (rb w) (vk w))
  | _ => .reject .minor

/-- Major 0x29. -/
def decode29 (w : IWord) : Decoded :=
  match field w 3 4 with
  | 0 => typed (wIntTyOf (vty w)) fun t => .ok (.vwadd t (rd w) (ra w) (rb w) (vk w))
  | 1 => typed (wIntTyOf (vty w)) fun t => .ok (.vwsub t (rd w) (ra w) (rb w) (vk w))
  | 2 => typed (wIntTyOf (vty w)) fun t => .ok (.vwmul t (rd w) (ra w) (rb w) (vk w))
  | 3 => typed (wIntTyOf (vty w)) fun t => .ok (.vwmac t (rd w) (ra w) (rb w) (vk w))
  | 4 => typed (fwTyOf (vty w)) fun t => .ok (.vfwadd t (rd w) (ra w) (rb w) (vk w))
  | 5 => typed (fwTyOf (vty w)) fun t => .ok (.vfwsub t (rd w) (ra w) (rb w) (vk w))
  | 6 => typed (fwTyOf (vty w)) fun t => .ok (.vfwmul t (rd w) (ra w) (rb w) (vk w))
  | 7 => typed (fwTyOf (vty w)) fun t => .ok (.vfwmac t (rd w) (ra w) (rb w) (vk w))
  | 8 => typed (byteTyOf (vty w)) fun t => .ok (.vdot t (rd w) (ra w) (rb w) (vk w))
  | 9 => typed (dotTyOf (vty w)) fun t => .ok (.vfdot t (rd w) (ra w) (rb w) (vk w))
  | _ => .reject .minor

/-- Major 0x2A. -/
def decode2A (w : IWord) : Decoded :=
  match field w 3 4 with
  | 0 => .ok (.vaddVs (intTyOf (vty w)) (rd w) (ra w) (rb w) (vk w))
  | 1 => .ok (.vsubVs (intTyOf (vty w)) (rd w) (ra w) (rb w) (vk w))
  | 2 => .ok (.vrsubVs (intTyOf (vty w)) (rd w) (ra w) (rb w) (vk w))
  | 3 => .ok (.vmulVs (intTyOf (vty w)) (rd w) (ra w) (rb w) (vk w))
  | 4 => .ok (.vminVs (intTyOf (vty w)) (rd w) (ra w) (rb w) (vk w))
  | 5 => .ok (.vmaxVs (intTyOf (vty w)) (rd w) (ra w) (rb w) (vk w))
  | 6 => .ok (.vandVs (intTyOf (vty w)) (rd w) (ra w) (rb w) (vk w))
  | 7 => .ok (.vsllVs (intTyOf (vty w)) (rd w) (ra w) (rb w) (vk w))
  | 8 => typed (fTyOf (vty w)) fun t => .ok (.vfaddVs t (rd w) (ra w) (rb w) (vk w))
  | 9 => typed (fTyOf (vty w)) fun t => .ok (.vfsubVs t (rd w) (ra w) (rb w) (vk w))
  | 10 => typed (fTyOf (vty w)) fun t => .ok (.vfrsubVs t (rd w) (ra w) (rb w) (vk w))
  | 11 => typed (fTyOf (vty w)) fun t => .ok (.vfmulVs t (rd w) (ra w) (rb w) (vk w))
  | 12 => typed (fTyOf (vty w)) fun t => .ok (.vfdivVs t (rd w) (ra w) (rb w) (vk w))
  | 13 => typed (fTyOf (vty w)) fun t => .ok (.vfrdivVs t (rd w) (ra w) (rb w) (vk w))
  | 14 => typed (fTyOf (vty w)) fun t => .ok (.vfmacVs t (rd w) (ra w) (rb w) (vk w))
  | 15 => typed (fTyOf (vty w)) fun t => .ok (.vfmaxVs t (rd w) (ra w) (rb w) (vk w))
  | _ => .reject .minor

/-- Major 0x2C. -/
def decode2C (w : IWord) : Decoded :=
  match field w 3 4 with
  | 0 => noB w <| typed (widthOf (vty w)) fun t => .ok (.vld t (rd w) (ra w) (vk w))
  | 1 => typed (width4Of (vty w)) fun t => .ok (.vlds t (rd w) (ra w) (rb w) (vk w))
  | 2 => typed (widthOf (vty w)) fun t => .ok (.vldFf t (rd w) (ra w) (rb w) (vk w))
  | 3 => noB w <| typed (vlwTyOf (vty w)) fun t => .ok (.vlw t (rd w) (ra w) (vk w))
  | _ => .reject .minor

/-- Major 0x2D. -/
def decode2D (w : IWord) : Decoded :=
  match field w 3 4 with
  | 0 => noB w <| typed (widthOf (vty w)) fun t => .ok (.vst t (rd w) (ra w) (vk w))
  | 1 => typed (width4Of (vty w)) fun t => .ok (.vsts t (rd w) (ra w) (rb w) (vk w))
  | _ => .reject .minor

/-- Major 0x2E: op 1 to 7 loads, op 9 to 15 stores (R165). -/
def decode2E (w : IWord) : Decoded :=
  match field w 6 1 with
  | 0 => noB w <| segment w fun n => typed (width4Of (vty w)) fun t => .ok (.vlseg t n (rd w) (ra w) (vk w))
  | _ => noB w <| segment w fun n => typed (width4Of (vty w)) fun t => .ok (.vsseg t n (rd w) (ra w) (vk w))

/-- Major 0x2F. -/
def decode2F (w : IWord) : Decoded :=
  match field w 3 4 with
  | 0 => typed (width4Of (vty w)) fun t => .ok (.vgather t (rd w) (ra w) (rb w) (vk w))
  | 1 => typed (width4Of (vty w)) fun t => .ok (.vscatter t (rd w) (ra w) (rb w) (vk w))
  | 2 => typed (width4Of (vty w)) fun t => .ok (.vgatherNb t (rd w) (ra w) (rb w) (vk w))
  | 3 => typed (width4Of (vty w)) fun t => .ok (.vlsl t (rd w) (ra w) (rb w) (vk w))
  | 4 => typed (width4Of (vty w)) fun t => .ok (.vssl t (rd w) (ra w) (rb w) (vk w))
  | 5 => typed (sendWOf (vty w)) fun t => .ok (.vsend t (rd w) (ra w) (rb w) (vk w))
  | _ => .reject .minor

/-- Major 0x30: codes 12 to 15 are reserved. -/
def decode30 (w : IWord) : Decoded :=
  typed (mxTyOf (w.extractLsb' 0 4)) fun t =>
    .ok (.mopa t (w.extractLsb' 23 3) (mxA w) (mxB w) (mxR w) (vk w).num (mxG w))

/-- Major 0x31: func 0 to 3. -/
def decode31 (w : IWord) : Decoded :=
  typed (mixTyOf (w.extractLsb' 0 4)) fun t =>
    .ok (.mopaMixed t (w.extractLsb' 23 3) (mxA w) (mxB w) (mxR w) (vk w).num (mxG w))

/-- Major 0x32. -/
noncomputable def decode32 (w : IWord) : Decoded :=
  match field w 0 4 with
  | 0 => unused (mxB w) <| unused (mxR w) <| unused (vk w).num <| unused (mxG w) <| .ok (.accon (w.extractLsb' 23 3) (mxA w))
  | 1 => unused (mxA w) <| unused (mxB w) <| unused (mxR w) <| unused (vk w).num <| unused (mxG w) <| .ok (.accoff (w.extractLsb' 23 3))
  | 2 => unused (mxA w) <| unused (mxB w) <| unused (mxR w) <| unused (vk w).num <| unused (mxG w) <| .ok (.accz (w.extractLsb' 23 3))
  | 3 => unused (mxA w) <| unused (mxB w) <| unused (mxG w) <| .ok (.acczM (w.extractLsb' 23 3) (mxR w) (vk w).num)
  | 4 => unused (mxR w) <| .ok (.accmovRv (w.extractLsb' 23 3) (mxA w) (mxB w) (vk w).num (mxG w))
  | 5 => unused (mxR w) <| .ok (.accmovCv (w.extractLsb' 23 3) (mxA w) (mxB w) (vk w).num (mxG w))
  | 6 => unused (mxR w) <| .ok (.accmovVr (w.extractLsb' 23 3) (mxA w) (mxB w) (vk w).num (mxG w))
  | 7 => unused (mxR w) <| .ok (.accmovVc (w.extractLsb' 23 3) (mxA w) (mxB w) (vk w).num (mxG w))
  | _ => .reject .minor

/-- Major 0x33. -/
noncomputable def decode33 (w : IWord) : Decoded :=
  match field w 0 4 with
  | 0 => unused (mxG w) <| .ok (.mldF32 (w.extractLsb' 23 3) (mxA w) (mxB w) (mxR w) (vk w).num)
  | 1 => unused (mxG w) <| .ok (.mldF64 (w.extractLsb' 23 3) (mxA w) (mxB w) (mxR w) (vk w).num)
  | 2 => unused (mxG w) <| .ok (.mldBf16 (w.extractLsb' 23 3) (mxA w) (mxB w) (mxR w) (vk w).num)
  | 3 => unused (mxG w) <| .ok (.mldFfF32 (w.extractLsb' 23 3) (mxA w) (mxB w) (mxR w) (vk w).num)
  | 4 => unused (mxG w) <| .ok (.mldFfF64 (w.extractLsb' 23 3) (mxA w) (mxB w) (mxR w) (vk w).num)
  | 5 => unused (mxG w) <| .ok (.mstF32 (w.extractLsb' 23 3) (mxA w) (mxB w) (mxR w) (vk w).num)
  | 6 => unused (mxG w) <| .ok (.mstF64 (w.extractLsb' 23 3) (mxA w) (mxB w) (mxR w) (vk w).num)
  | 7 => unused (mxG w) <| .ok (.mstBf16 (w.extractLsb' 23 3) (mxA w) (mxB w) (mxR w) (vk w).num)
  | _ => .reject .minor

/-- Major 0x34. -/
noncomputable def decode34 (w : IWord) : Decoded :=
  match field w 0 11 with
  | 0x000 => noD w <| noA w <| scopeReg (rb w) fun sm => .ok (.fence sm)
  | 0x001 => noD w <| noA w <| scopeReg (rb w) fun sm => .ok (.fenceAcq sm)
  | 0x002 => noD w <| noA w <| scopeReg (rb w) fun sm => .ok (.fenceRel sm)
  | 0x003 => noD w <| noA w <| noB w <| .ok (.fenceI)
  | 0x004 | 0x005 | 0x006 | 0x007 => .ok (.waita (condOf (w.extractLsb' 0 2)) (rd w) (ra w) (rb w))
  | 0x008 | 0x009 | 0x00A | 0x00B => .ok (.waitaAq (condOf (w.extractLsb' 0 2)) (rd w) (ra w) (rb w))
  | 0x00C => noD w <| noA w <| noB w <| .ok (.engwait)
  | _ => .reject .minor

/-- Major 0x35. -/
noncomputable def decode35 (w : IWord) : Decoded :=
  match field w 0 11 with
  | 0x000 => .ok (.cpy (rd w) (ra w) (rb w))
  | 0x001 => .ok (.kvgather (rd w) (ra w) (rb w))
  | 0x002 => .ok (.kvappend (rd w) (ra w) (rb w))
  | 0x003 => .ok (.fconvD2f (rd w) (ra w) (rb w))
  | 0x004 => .ok (.fconvF2d (rd w) (ra w) (rb w))
  | 0x005 => .ok (.sfbag (rd w) (ra w) (rb w))
  | _ => .reject .minor

/-- Major 0x36. -/
noncomputable def decode36 (w : IWord) : Decoded :=
  match field w 0 11 with
  | 0x000 => noB w <| .ok (.sbind (rd w) (ra w))
  | 0x001 => noB w <| .ok (.sbindGen (rd w) (ra w))
  | 0x002 => noA w <| noB w <| .ok (.srel (rd w))
  | 0x003 => noB w <| .ok (.tload (rd w) (ra w))
  | 0x004 => noD w <| noA w <| noB w <| .ok (.tswap)
  | 0x005 => noA w <| noB w <| .ok (.tbar (rd w))
  | _ => .reject .minor

/-- Major 0x37. -/
noncomputable def decode37 (w : IWord) : Decoded :=
  match field w 0 11 with
  | 0x000 => noA w <| noB w <| .ok (.tspawn (rd w))
  | 0x001 => noB w <| .ok (.gang (rd w) (ra w))
  | 0x002 => noD w <| noA w <| noB w <| .ok (.gangLeave)
  | 0x003 => noB w <| .ok (.watchBind (rd w) (ra w))
  | 0x004 => noA w <| noB w <| .ok (.watchArm (rd w))
  | 0x005 => noA w <| noB w <| .ok (.watchDisarm (rd w))
  | 0x006 => noA w <| noB w <| .ok (.watchUnbind (rd w))
  | 0x007 => noA w <| noB w <| .ok (.endTask (rd w))
  | _ => .reject .minor

/-- Major 0x38. -/
noncomputable def decode38 (w : IWord) : Decoded :=
  match field w 12 4 with
  | 0 => noA w <| .ok (.csrr (rd w) (w.extractLsb' 0 12))
  | 1 => .ok (.csrw (rd w) (ra w) (w.extractLsb' 0 12))
  | 2 => .ok (.csrs (rd w) (ra w) (w.extractLsb' 0 12))
  | 3 => .ok (.csrc (rd w) (ra w) (w.extractLsb' 0 12))
  | _ => .reject .minor

/-- Major 0x39. -/
noncomputable def decode39 (w : IWord) : Decoded :=
  match field w 12 4 with
  | 0 => noD w <| noA w <| unused (w.extractLsb' 0 12) <| .ok (.eret)
  | 1 => noD w <| noA w <| .ok (.brk (w.extractLsb' 0 12))
  | 2 => noD w <| noA w <| .ok (.syscall (w.extractLsb' 0 12))
  | 3 => noD w <| unused (w.extractLsb' 0 12) <| .ok (.tabort (ra w))
  | _ => .reject .minor

/-- Major 0x3A. -/
noncomputable def decode3A (w : IWord) : Decoded :=
  match field w 12 4 with
  | 0 => noD w <| noA w <| unused (w.extractLsb' 0 12) <| .ok (.tlbiAll)
  | 1 => noD w <| unused (w.extractLsb' 0 12) <| .ok (.tlbiAs (ra w))
  | 2 => unused (w.extractLsb' 0 12) <| .ok (.tlbiVa (rd w) (ra w))
  | 3 => noD w <| unused (w.extractLsb' 0 12) <| .ok (.tlbiVaall (ra w))
  | 4 => noD w <| unused (w.extractLsb' 0 12) <| .ok (.clean (ra w))
  | 5 => noD w <| unused (w.extractLsb' 0 12) <| .ok (.flush (ra w))
  | 6 => noD w <| noA w <| unused (w.extractLsb' 0 12) <| .ok (.flushL1)
  | 7 => noD w <| noA w <| unused (w.extractLsb' 0 12) <| .ok (.flushL2)
  | _ => .reject .minor

/-- The instruction that a word is, or why it is illegal (R108, R111). -/
noncomputable def decode (w : IWord) : Decoded :=
  match field w 26 6 with
  | 0x01 => decode01 w
  | 0x02 => decode02 w
  | 0x03 => decode03 w
  | 0x04 => .ok (.addi (rd w) (ra w) (imm16 w))
  | 0x05 => .ok (.andi (rd w) (ra w) (imm16 w))
  | 0x06 => .ok (.ori (rd w) (ra w) (imm16 w))
  | 0x07 => .ok (.xori (rd w) (ra w) (imm16 w))
  | 0x08 => .ok (.setlti (rd w) (ra w) (imm16 w))
  | 0x09 => .ok (.setltni (rd w) (ra w) (imm16 w))
  | 0x0A => decode0A w
  | 0x0B => reservedA w <| .ok (.lui (rd w) (imm16 w))
  | 0x0C => reservedA w <| .ok (.addpc (rd w) (imm16 w))
  | 0x0D => .ok (.shori (rd w) (ra w) (imm16 w))
  | 0x0E => decode0E w
  | 0x0F => .ok (.jalr (rd w) (ra w) (imm16 w))
  | 0x10 => .ok (.beq (rd w) (ra w) (imm16 w))
  | 0x11 => .ok (.bne (rd w) (ra w) (imm16 w))
  | 0x12 => .ok (.blt (rd w) (ra w) (imm16 w))
  | 0x13 => .ok (.bge (rd w) (ra w) (imm16 w))
  | 0x14 => .ok (.bltu (rd w) (ra w) (imm16 w))
  | 0x15 => .ok (.bgeu (rd w) (ra w) (imm16 w))
  | 0x16 => .ok (.j (w.extractLsb' 0 26))
  | 0x17 => .ok (.jal (w.extractLsb' 0 26))
  | 0x18 => .ok (.ld (rd w) (ra w) (imm16 w))
  | 0x19 => .ok (.lw (rd w) (ra w) (imm16 w))
  | 0x1A => .ok (.lwu (rd w) (ra w) (imm16 w))
  | 0x1B => .ok (.sd (rd w) (ra w) (imm16 w))
  | 0x1C => .ok (.sw (rd w) (ra w) (imm16 w))
  | 0x1D => decode1D w
  | 0x1E => decode1E w
  | 0x1F => decode1F w
  | 0x20 => decode20 w
  | 0x21 => decode21 w
  | 0x22 => decode22 w
  | 0x23 => decode23 w
  | 0x24 => decode24 w
  | 0x25 => decode25 w
  | 0x26 => decode26 w
  | 0x27 => decode27 w
  | 0x28 => decode28 w
  | 0x29 => decode29 w
  | 0x2A => decode2A w
  | 0x2C => decode2C w
  | 0x2D => decode2D w
  | 0x2E => decode2E w
  | 0x2F => decode2F w
  | 0x30 => decode30 w
  | 0x31 => decode31 w
  | 0x32 => decode32 w
  | 0x33 => decode33 w
  | 0x34 => decode34 w
  | 0x35 => decode35 w
  | 0x36 => decode36 w
  | 0x37 => decode37 w
  | 0x38 => decode38 w
  | 0x39 => decode39 w
  | 0x3A => decode3A w
  | _ => .reject .major

/-! ## Encoding (R106) -/

/-- The RRR and Q formats. -/
def rrr (major : BitVec 6) (d a b : Reg) (minor : BitVec 11) : IWord := major ++ d ++ a ++ b ++ minor
/-- The I16, M and B formats. -/
def i16 (major : BitVec 6) (d a : Reg) (imm : BitVec 16) : IWord := major ++ d ++ a ++ imm
/-- The J format. -/
def jump (major : BitVec 6) (off : BitVec 26) : IWord := major ++ off
/-- The V and VM formats. -/
def vec (major : BitVec 6) (d a b : Reg) (k : VMask) (func : BitVec 7) : IWord :=
  major ++ d ++ a ++ b ++ BitVec.ofBool k.on ++ k.num ++ func
/-- The MX format. -/
def mx (major : BitVec 6) (n : AccN) (a b : Reg) (mr mc grp : BitVec 3) (func : BitVec 4) : IWord :=
  major ++ n ++ a ++ b ++ mr ++ mc ++ grp ++ func
/-- The Y format. -/
def sys (major : BitVec 6) (d a : Reg) (func : BitVec 4) (csr : BitVec 12) : IWord := major ++ d ++ a ++ func ++ csr

/-- No mask. -/
def VMask.off : VMask := { on := false, num := 0 }

/-- A 5-bit field that names a mask register. -/
def mfield (m : MReg) : Reg := 0#2 ++ m

/-- The minor field of an atomic (R112). -/
def amoMinor (q : AmoQual) (op : BitVec 4) : BitVec 11 := ordCode q.ord ++ BitVec.ofBool q.dbl ++ q.scope ++ op

/-- The word of an instruction; none for a step that no word encodes. -/
def encode (i : Instr) : Option IWord :=
  match i with
  | .add d a b => some (rrr 0x01 d a b 0x000)
  | .sub d a b => some (rrr 0x01 d a b 0x001)
  | .and d a b => some (rrr 0x01 d a b 0x002)
  | .or d a b => some (rrr 0x01 d a b 0x003)
  | .xor d a b => some (rrr 0x01 d a b 0x004)
  | .nor d a b => some (rrr 0x01 d a b 0x005)
  | .andn d a b => some (rrr 0x01 d a b 0x006)
  | .orn d a b => some (rrr 0x01 d a b 0x007)
  | .sll d a b => some (rrr 0x01 d a b 0x008)
  | .srl d a b => some (rrr 0x01 d a b 0x009)
  | .sra d a b => some (rrr 0x01 d a b 0x00A)
  | .ror d a b => some (rrr 0x01 d a b 0x00B)
  | .setlt d a b => some (rrr 0x01 d a b 0x00C)
  | .setltn d a b => some (rrr 0x01 d a b 0x00D)
  | .seteq d a b => some (rrr 0x01 d a b 0x00E)
  | .setne d a b => some (rrr 0x01 d a b 0x00F)
  | .min d a b => some (rrr 0x01 d a b 0x010)
  | .max d a b => some (rrr 0x01 d a b 0x011)
  | .minu d a b => some (rrr 0x01 d a b 0x012)
  | .maxu d a b => some (rrr 0x01 d a b 0x013)
  | .add32 d a b => some (rrr 0x01 d a b 0x014)
  | .sub32 d a b => some (rrr 0x01 d a b 0x015)
  | .sll32 d a b => some (rrr 0x01 d a b 0x016)
  | .srl32 d a b => some (rrr 0x01 d a b 0x017)
  | .sra32 d a b => some (rrr 0x01 d a b 0x018)
  | .addo d a b => some (rrr 0x01 d a b 0x019)
  | .subo d a b => some (rrr 0x01 d a b 0x01A)
  | .addsc1 d a b => some (rrr 0x01 d a b 0x01B)
  | .addsc2 d a b => some (rrr 0x01 d a b 0x01C)
  | .addsc3 d a b => some (rrr 0x01 d a b 0x01D)
  | .mul d a b => some (rrr 0x02 d a b 0x000)
  | .mulhs d a b => some (rrr 0x02 d a b 0x001)
  | .mulhn d a b => some (rrr 0x02 d a b 0x002)
  | .mulhsn d a b => some (rrr 0x02 d a b 0x003)
  | .mul32 d a b => some (rrr 0x02 d a b 0x004)
  | .divs d a b => some (rrr 0x02 d a b 0x005)
  | .divn d a b => some (rrr 0x02 d a b 0x006)
  | .rems d a b => some (rrr 0x02 d a b 0x007)
  | .remn d a b => some (rrr 0x02 d a b 0x008)
  | .divs32 d a b => some (rrr 0x02 d a b 0x009)
  | .divn32 d a b => some (rrr 0x02 d a b 0x00A)
  | .rems32 d a b => some (rrr 0x02 d a b 0x00B)
  | .remn32 d a b => some (rrr 0x02 d a b 0x00C)
  | .clz d a => some (rrr 0x03 d a 0 0x000)
  | .ctz d a => some (rrr 0x03 d a 0 0x001)
  | .popc d a => some (rrr 0x03 d a 0 0x002)
  | .brev d a => some (rrr 0x03 d a 0 0x003)
  | .bswap d a => some (rrr 0x03 d a 0 0x004)
  | .extS d a b => some (rrr 0x03 d a b 0x005)
  | .extU d a b => some (rrr 0x03 d a b 0x006)
  | .ins d a b => some (rrr 0x03 d a b 0x007)
  | .clz32 d a => some (rrr 0x03 d a 0 0x008)
  | .ctz32 d a => some (rrr 0x03 d a 0 0x009)
  | .popc32 d a => some (rrr 0x03 d a 0 0x00A)
  | .bswap32 d a => some (rrr 0x03 d a 0 0x00B)
  | .addi d a imm => some (i16 0x04 d a imm)
  | .andi d a imm => some (i16 0x05 d a imm)
  | .ori d a imm => some (i16 0x06 d a imm)
  | .xori d a imm => some (i16 0x07 d a imm)
  | .setlti d a imm => some (i16 0x08 d a imm)
  | .setltni d a imm => some (i16 0x09 d a imm)
  | .slli d a n => some (i16 0x0A d a (0#10 ++ n))
  | .srli d a n => some (i16 0x0A d a (1#10 ++ n))
  | .srai d a n => some (i16 0x0A d a (2#10 ++ n))
  | .rori d a n => some (i16 0x0A d a (3#10 ++ n))
  | .lui d imm => some (i16 0x0B d 0 imm)
  | .addpc d imm => some (i16 0x0C d 0 imm)
  | .shori d a imm => some (i16 0x0D d a imm)
  | .fadd p d a b => some (rrr 0x0E d a b (0#10 ++ precBit p))
  | .fsub p d a b => some (rrr 0x0E d a b (1#10 ++ precBit p))
  | .fmul p d a b => some (rrr 0x0E d a b (2#10 ++ precBit p))
  | .fdiv p d a b => some (rrr 0x0E d a b (3#10 ++ precBit p))
  | .fsqrt p d a => some (rrr 0x0E d a 0 (4#10 ++ precBit p))
  | .fmin p d a b => some (rrr 0x0E d a b (5#10 ++ precBit p))
  | .fmax p d a b => some (rrr 0x0E d a b (6#10 ++ precBit p))
  | .fmac p d a b => some (rrr 0x0E d a b (7#10 ++ precBit p))
  | .fmsc p d a b => some (rrr 0x0E d a b (8#10 ++ precBit p))
  | .fcmpeq p d a b => some (rrr 0x0E d a b (9#10 ++ precBit p))
  | .fcmplt p d a b => some (rrr 0x0E d a b (10#10 ++ precBit p))
  | .fcmple p d a b => some (rrr 0x0E d a b (11#10 ++ precBit p))
  | .fkind p d a => some (rrr 0x0E d a 0 (12#10 ++ precBit p))
  | .fcvti p rtz d a => some (rrr 0x0E d a (BitVec.ofNat 5 rtz.toNat) (13#10 ++ precBit p))
  | .fcvtiu p rtz d a => some (rrr 0x0E d a (BitVec.ofNat 5 rtz.toNat) (14#10 ++ precBit p))
  | .fcvtf p d a => some (rrr 0x0E d a 0 (15#10 ++ precBit p))
  | .fcvtfu p d a => some (rrr 0x0E d a 0 (16#10 ++ precBit p))
  | .fcvtp p d a => some (rrr 0x0E d a 0 (17#10 ++ precBit p))
  | .fcopys p d a b => some (rrr 0x0E d a b (18#10 ++ precBit p))
  | .fcopysn p d a b => some (rrr 0x0E d a b (19#10 ++ precBit p))
  | .jalr d a imm => some (i16 0x0F d a imm)
  | .beq a b off => some (i16 0x10 a b off)
  | .bne a b off => some (i16 0x11 a b off)
  | .blt a b off => some (i16 0x12 a b off)
  | .bge a b off => some (i16 0x13 a b off)
  | .bltu a b off => some (i16 0x14 a b off)
  | .bgeu a b off => some (i16 0x15 a b off)
  | .j off => some (jump 0x16 off)
  | .jal off => some (jump 0x17 off)
  | .ld d a disp => some (i16 0x18 d a disp)
  | .lw d a disp => some (i16 0x19 d a disp)
  | .lwu d a disp => some (i16 0x1A d a disp)
  | .sd d a disp => some (i16 0x1B d a disp)
  | .sw d a disp => some (i16 0x1C d a disp)
  | .prfRd a disp => some (i16 0x1D 0 a disp)
  | .prfWr a disp => some (i16 0x1D 1 a disp)
  | .lb d a b => some (rrr 0x1E d a b 0x000)
  | .lbu d a b => some (rrr 0x1E d a b 0x001)
  | .lh d a b => some (rrr 0x1E d a b 0x002)
  | .lhu d a b => some (rrr 0x1E d a b 0x003)
  | .sb d a b => some (rrr 0x1E d a b 0x004)
  | .sh d a b => some (rrr 0x1E d a b 0x005)
  | .lr q d a => some (rrr 0x1F d a 0 (amoMinor q 0))
  | .sc q d a b => some (rrr 0x1F d a b (amoMinor q 1))
  | .amoswap q d a b => some (rrr 0x1F d a b (amoMinor q 2))
  | .amoadd q d a b => some (rrr 0x1F d a b (amoMinor q 3))
  | .amoand q d a b => some (rrr 0x1F d a b (amoMinor q 4))
  | .amoor q d a b => some (rrr 0x1F d a b (amoMinor q 5))
  | .amoxor q d a b => some (rrr 0x1F d a b (amoMinor q 6))
  | .amomin q d a b => some (rrr 0x1F d a b (amoMinor q 7))
  | .amomax q d a b => some (rrr 0x1F d a b (amoMinor q 8))
  | .amominu q d a b => some (rrr 0x1F d a b (amoMinor q 9))
  | .amomaxu q d a b => some (rrr 0x1F d a b (amoMinor q 10))
  | .amocas q d a b => some (rrr 0x1F d a b (amoMinor q 11))
  | .setvl w d a => some (vec 0x20 d a 0 VMask.off (0#4 ++ wCode w))
  | .vsplat t d a k => some (vec 0x20 d a 0 k (1#4 ++ intTyCode t))
  | .vmvg t d a b => some (vec 0x20 d a b VMask.off (2#4 ++ intTyCode t))
  | .vmvv t d a b => some (vec 0x20 d a b VMask.off (3#4 ++ intTyCode t))
  | .vid t d k => some (vec 0x20 d 0 0 k (4#4 ++ intTyCode t))
  | .vmv t d a k => some (vec 0x20 d a 0 k (5#4 ++ intTyCode t))
  | .vmerge t d a b mk => some (vec 0x20 d a b ⟨true, mk⟩ (6#4 ++ intTyCode t))
  | .mand d a b => some (vec 0x21 (mfield d) (mfield a) (mfield b) VMask.off (0#4 ++ 0#3))
  | .mor d a b => some (vec 0x21 (mfield d) (mfield a) (mfield b) VMask.off (1#4 ++ 0#3))
  | .mxor d a b => some (vec 0x21 (mfield d) (mfield a) (mfield b) VMask.off (2#4 ++ 0#3))
  | .mandn d a b => some (vec 0x21 (mfield d) (mfield a) (mfield b) VMask.off (3#4 ++ 0#3))
  | .morn d a b => some (vec 0x21 (mfield d) (mfield a) (mfield b) VMask.off (4#4 ++ 0#3))
  | .mnot d a => some (vec 0x21 (mfield d) (mfield a) 0 VMask.off (5#4 ++ 0#3))
  | .mset d => some (vec 0x21 (mfield d) 0 0 VMask.off (6#4 ++ 0#3))
  | .mclr d => some (vec 0x21 (mfield d) 0 0 VMask.off (7#4 ++ 0#3))
  | .vffs d a k => some (vec 0x21 d (mfield a) 0 k (8#4 ++ 0#3))
  | .vpopc d a k => some (vec 0x21 d (mfield a) 0 k (9#4 ++ 0#3))
  | .vmprefix t d a k => some (vec 0x21 d (mfield a) 0 k (10#4 ++ intTyCode t))
  | .vshup t d a b k => some (vec 0x22 d a b k (0#4 ++ intTyCode t))
  | .vshdn t d a b k => some (vec 0x22 d a b k (1#4 ++ intTyCode t))
  | .vperm t d a b k => some (vec 0x22 d a b k (2#4 ++ intTyCode t))
  | .vpackm t d a mk => some (vec 0x22 d a 0 ⟨true, mk⟩ (3#4 ++ intTyCode t))
  | .vreshape t d a b => some (vec 0x22 d a b VMask.off (4#4 ++ intTyCode t))
  | .vbcast t d a b k => some (vec 0x22 d a b k (5#4 ++ intTyCode t))
  | .vadd t d a b k => some (vec 0x23 d a b k (0#4 ++ intTyCode t))
  | .vsub t d a b k => some (vec 0x23 d a b k (1#4 ++ intTyCode t))
  | .vmul t d a b k => some (vec 0x23 d a b k (2#4 ++ intTyCode t))
  | .vmulh t d a b k => some (vec 0x23 d a b k (3#4 ++ intTyCode t))
  | .vdiv t d a b k => some (vec 0x23 d a b k (4#4 ++ intTyCode t))
  | .vrem t d a b k => some (vec 0x23 d a b k (5#4 ++ intTyCode t))
  | .vmin t d a b k => some (vec 0x23 d a b k (6#4 ++ intTyCode t))
  | .vmax t d a b k => some (vec 0x23 d a b k (7#4 ++ intTyCode t))
  | .vand t d a b k => some (vec 0x23 d a b k (8#4 ++ intTyCode t))
  | .vor t d a b k => some (vec 0x23 d a b k (9#4 ++ intTyCode t))
  | .vxor t d a b k => some (vec 0x23 d a b k (10#4 ++ intTyCode t))
  | .vsll t d a b k => some (vec 0x23 d a b k (11#4 ++ intTyCode t))
  | .vsr t d a b k => some (vec 0x23 d a b k (12#4 ++ intTyCode t))
  | .vadds t d a b k => some (vec 0x23 d a b k (13#4 ++ intTyCode t))
  | .vsubs t d a b k => some (vec 0x23 d a b k (14#4 ++ intTyCode t))
  | .vmac t d a b k => some (vec 0x23 d a b k (15#4 ++ intTyCode t))
  | .vseq t d a b k => some (vec 0x24 (mfield d) a b k (0#4 ++ intTyCode t))
  | .vsne t d a b k => some (vec 0x24 (mfield d) a b k (1#4 ++ intTyCode t))
  | .vslt t d a b k => some (vec 0x24 (mfield d) a b k (2#4 ++ intTyCode t))
  | .vsle t d a b k => some (vec 0x24 (mfield d) a b k (3#4 ++ intTyCode t))
  | .vsgt t d a b k => some (vec 0x24 (mfield d) a b k (4#4 ++ intTyCode t))
  | .vsge t d a b k => some (vec 0x24 (mfield d) a b k (5#4 ++ intTyCode t))
  | .vfadd t d a b k => some (vec 0x25 d a b k (0#4 ++ fTyCode t))
  | .vfsub t d a b k => some (vec 0x25 d a b k (1#4 ++ fTyCode t))
  | .vfmul t d a b k => some (vec 0x25 d a b k (2#4 ++ fTyCode t))
  | .vfdiv t d a b k => some (vec 0x25 d a b k (3#4 ++ fTyCode t))
  | .vfsqrt t d a k => some (vec 0x25 d a 0 k (4#4 ++ fTyCode t))
  | .vfmin t d a b k => some (vec 0x25 d a b k (5#4 ++ fTyCode t))
  | .vfmax t d a b k => some (vec 0x25 d a b k (6#4 ++ fTyCode t))
  | .vfmac t d a b k => some (vec 0x25 d a b k (7#4 ++ fTyCode t))
  | .vfmsc t d a b k => some (vec 0x25 d a b k (8#4 ++ fTyCode t))
  | .vfcopys t d a b k => some (vec 0x25 d a b k (9#4 ++ fTyCode t))
  | .vfcopysn t d a b k => some (vec 0x25 d a b k (10#4 ++ fTyCode t))
  | .vfcmpeq t d a b k => some (vec 0x26 (mfield d) a b k (0#4 ++ fTyCode t))
  | .vfcmpne t d a b k => some (vec 0x26 (mfield d) a b k (1#4 ++ fTyCode t))
  | .vfcmplt t d a b k => some (vec 0x26 (mfield d) a b k (2#4 ++ fTyCode t))
  | .vfcmple t d a b k => some (vec 0x26 (mfield d) a b k (3#4 ++ fTyCode t))
  | .vfkind t d a k => some (vec 0x26 d a 0 k (4#4 ++ fTyCode t))
  | .vcvt f d a k => some (vec 0x27 d a 0 k (cvtCode f))
  | .vredAdd t d a b k => some (vec 0x28 d a b k (0#4 ++ intTyCode t))
  | .vredMin t d a b k => some (vec 0x28 d a b k (1#4 ++ intTyCode t))
  | .vredMax t d a b k => some (vec 0x28 d a b k (2#4 ++ intTyCode t))
  | .vredAnd t d a b k => some (vec 0x28 d a b k (3#4 ++ intTyCode t))
  | .vredOr t d a b k => some (vec 0x28 d a b k (4#4 ++ intTyCode t))
  | .vredXor t d a b k => some (vec 0x28 d a b k (5#4 ++ intTyCode t))
  | .vfredTree t d a b k => some (vec 0x28 d a b k (6#4 ++ fTyCode t))
  | .vfredSeq t d a b k => some (vec 0x28 d a b k (7#4 ++ fTyCode t))
  | .vfredMin t d a b k => some (vec 0x28 d a b k (8#4 ++ fTyCode t))
  | .vfredMax t d a b k => some (vec 0x28 d a b k (9#4 ++ fTyCode t))
  | .vscan t d a b k => some (vec 0x28 d a b k (10#4 ++ intTyCode t))
  | .vfscan t d a b k => some (vec 0x28 d a b k (11#4 ++ fTyCode t))
  | .vwadd t d a b k => some (vec 0x29 d a b k (0#4 ++ wIntTyCode t))
  | .vwsub t d a b k => some (vec 0x29 d a b k (1#4 ++ wIntTyCode t))
  | .vwmul t d a b k => some (vec 0x29 d a b k (2#4 ++ wIntTyCode t))
  | .vwmac t d a b k => some (vec 0x29 d a b k (3#4 ++ wIntTyCode t))
  | .vfwadd t d a b k => some (vec 0x29 d a b k (4#4 ++ fwTyCode t))
  | .vfwsub t d a b k => some (vec 0x29 d a b k (5#4 ++ fwTyCode t))
  | .vfwmul t d a b k => some (vec 0x29 d a b k (6#4 ++ fwTyCode t))
  | .vfwmac t d a b k => some (vec 0x29 d a b k (7#4 ++ fwTyCode t))
  | .vdot t d a b k => some (vec 0x29 d a b k (8#4 ++ byteTyCode t))
  | .vfdot t d a b k => some (vec 0x29 d a b k (9#4 ++ dotTyCode t))
  | .vaddVs t d a b k => some (vec 0x2A d a b k (0#4 ++ intTyCode t))
  | .vsubVs t d a b k => some (vec 0x2A d a b k (1#4 ++ intTyCode t))
  | .vrsubVs t d a b k => some (vec 0x2A d a b k (2#4 ++ intTyCode t))
  | .vmulVs t d a b k => some (vec 0x2A d a b k (3#4 ++ intTyCode t))
  | .vminVs t d a b k => some (vec 0x2A d a b k (4#4 ++ intTyCode t))
  | .vmaxVs t d a b k => some (vec 0x2A d a b k (5#4 ++ intTyCode t))
  | .vandVs t d a b k => some (vec 0x2A d a b k (6#4 ++ intTyCode t))
  | .vsllVs t d a b k => some (vec 0x2A d a b k (7#4 ++ intTyCode t))
  | .vfaddVs t d a b k => some (vec 0x2A d a b k (8#4 ++ fTyCode t))
  | .vfsubVs t d a b k => some (vec 0x2A d a b k (9#4 ++ fTyCode t))
  | .vfrsubVs t d a b k => some (vec 0x2A d a b k (10#4 ++ fTyCode t))
  | .vfmulVs t d a b k => some (vec 0x2A d a b k (11#4 ++ fTyCode t))
  | .vfdivVs t d a b k => some (vec 0x2A d a b k (12#4 ++ fTyCode t))
  | .vfrdivVs t d a b k => some (vec 0x2A d a b k (13#4 ++ fTyCode t))
  | .vfmacVs t d a b k => some (vec 0x2A d a b k (14#4 ++ fTyCode t))
  | .vfmaxVs t d a b k => some (vec 0x2A d a b k (15#4 ++ fTyCode t))
  | .vld w d a k => some (vec 0x2C d a 0 k (0#4 ++ wCode w))
  | .vlds w d a x k => some (vec 0x2C d a x k (1#4 ++ width4Code w))
  | .vldFf w d a x k => some (vec 0x2C d a x k (2#4 ++ wCode w))
  | .vlw t d a k => some (vec 0x2C d a 0 k (3#4 ++ vlwTyCode t))
  | .vst w d a k => some (vec 0x2D d a 0 k (0#4 ++ wCode w))
  | .vsts w d a x k => some (vec 0x2D d a x k (1#4 ++ width4Code w))
  | .vlseg w n d a k => some (vec 0x2E d a 0 k (0#1 ++ n ++ width4Code w))
  | .vsseg w n d a k => some (vec 0x2E d a 0 k (1#1 ++ n ++ width4Code w))
  | .vgather w d a x k => some (vec 0x2F d a x k (0#4 ++ width4Code w))
  | .vscatter w d a x k => some (vec 0x2F d a x k (1#4 ++ width4Code w))
  | .vgatherNb w d a x k => some (vec 0x2F d a x k (2#4 ++ width4Code w))
  | .vlsl w d a x k => some (vec 0x2F d a x k (3#4 ++ width4Code w))
  | .vssl w d a x k => some (vec 0x2F d a x k (4#4 ++ width4Code w))
  | .vsend w d a x k => some (vec 0x2F d a x k (5#4 ++ sendWCode w))
  | .mopa t n a b mr mc grp => some (mx 0x30 n a b mr mc grp (mxTyCode t))
  | .mopaMixed t n a b mr mc grp => some (mx 0x31 n a b mr mc grp (mixTyCode t))
  | .accon n d => some (mx 0x32 n d 0 0 0 0 0)
  | .accoff n => some (mx 0x32 n 0 0 0 0 0 1)
  | .accz n => some (mx 0x32 n 0 0 0 0 0 2)
  | .acczM n mr mc => some (mx 0x32 n 0 0 mr mc 0 3)
  | .accmovRv n d b mc grp => some (mx 0x32 n d b 0 mc grp 4)
  | .accmovCv n d b mc grp => some (mx 0x32 n d b 0 mc grp 5)
  | .accmovVr n a b mc grp => some (mx 0x32 n a b 0 mc grp 6)
  | .accmovVc n a b mc grp => some (mx 0x32 n a b 0 mc grp 7)
  | .mldF32 n a b mr mc => some (mx 0x33 n a b mr mc 0 0)
  | .mldF64 n a b mr mc => some (mx 0x33 n a b mr mc 0 1)
  | .mldBf16 n a b mr mc => some (mx 0x33 n a b mr mc 0 2)
  | .mldFfF32 n a b mr mc => some (mx 0x33 n a b mr mc 0 3)
  | .mldFfF64 n a b mr mc => some (mx 0x33 n a b mr mc 0 4)
  | .mstF32 n a b mr mc => some (mx 0x33 n a b mr mc 0 5)
  | .mstF64 n a b mr mc => some (mx 0x33 n a b mr mc 0 6)
  | .mstBf16 n a b mr mc => some (mx 0x33 n a b mr mc 0 7)
  | .fence sm => some (rrr 0x34 0 0 (0#1 ++ sm) 0x000)
  | .fenceAcq sm => some (rrr 0x34 0 0 (0#1 ++ sm) 0x001)
  | .fenceRel sm => some (rrr 0x34 0 0 (0#1 ++ sm) 0x002)
  | .fenceI => some (rrr 0x34 0 0 0 0x003)
  | .waita c a b x => some (rrr 0x34 a b x (1#9 ++ condCode c))
  | .waitaAq c a b x => some (rrr 0x34 a b x (2#9 ++ condCode c))
  | .engwait => some (rrr 0x34 0 0 0 0x00C)
  | .cpy a b x => some (rrr 0x35 a b x 0x000)
  | .kvgather a b x => some (rrr 0x35 a b x 0x001)
  | .kvappend a b x => some (rrr 0x35 a b x 0x002)
  | .fconvD2f a b x => some (rrr 0x35 a b x 0x003)
  | .fconvF2d a b x => some (rrr 0x35 a b x 0x004)
  | .sfbag a b x => some (rrr 0x35 a b x 0x005)
  | .sbind a b => some (rrr 0x36 a b 0 0x000)
  | .sbindGen a b => some (rrr 0x36 a b 0 0x001)
  | .srel a => some (rrr 0x36 a 0 0 0x002)
  | .tload a b => some (rrr 0x36 a b 0 0x003)
  | .tswap => some (rrr 0x36 0 0 0 0x004)
  | .tbar a => some (rrr 0x36 a 0 0 0x005)
  | .tspawn a => some (rrr 0x37 a 0 0 0x000)
  | .gang a b => some (rrr 0x37 a b 0 0x001)
  | .gangLeave => some (rrr 0x37 0 0 0 0x002)
  | .watchBind a b => some (rrr 0x37 a b 0 0x003)
  | .watchArm a => some (rrr 0x37 a 0 0 0x004)
  | .watchDisarm a => some (rrr 0x37 a 0 0 0x005)
  | .watchUnbind a => some (rrr 0x37 a 0 0 0x006)
  | .endTask a => some (rrr 0x37 a 0 0 0x007)
  | .csrr d csr => some (sys 0x38 d 0 0 csr)
  | .csrw d a csr => some (sys 0x38 d a 1 csr)
  | .csrs d a csr => some (sys 0x38 d a 2 csr)
  | .csrc d a csr => some (sys 0x38 d a 3 csr)
  | .eret => some (sys 0x39 0 0 0 0)
  | .brk code => some (sys 0x39 0 0 1 code)
  | .syscall code => some (sys 0x39 0 0 2 code)
  | .tabort a => some (sys 0x39 0 a 3 0)
  | .tlbiAll => some (sys 0x3A 0 0 0 0)
  | .tlbiAs a => some (sys 0x3A 0 a 1 0)
  | .tlbiVa d a => some (sys 0x3A d a 2 0)
  | .tlbiVaall a => some (sys 0x3A 0 a 3 0)
  | .clean a => some (sys 0x3A 0 a 4 0)
  | .flush a => some (sys 0x3A 0 a 5 0)
  | .flushL1 => some (sys 0x3A 0 0 6 0)
  | .flushL2 => some (sys 0x3A 0 0 7 0)
  | .trellisCycle _ _ => none
  | .cellAccessDone _ _ => none
  | .streamPush _ _ => none
  | .writePortStore _ _ => none
  | .streamFault _ _ => none
  | .streamRelease _ _ => none
  | .reservationSplit _ _ => none
  | .deadlockDetect _ => none
  | .fabricFreeze _ => none
  | .engineAccept _ => none
  | .engineComplete _ => none
  | .engineFault _ _ => none
  | .trainAck _ => none
  | .deferredError _ _ _ => none
  | .remoteTimeout _ _ => none
  | .asyncTrap _ => none
  | .setvlRetry _ => none
  | .waitaWake _ => none
  | .waitaTimeout _ => none
  | .endProceed _ => none
  | .tswapProceed _ => none
  | .lrReservationExpire _ => none
  | .watchTrigger _ => none
  | .dispatchPlace _ => none
  | .agingPromote _ _ => none
  | .gangReserve _ _ => none
  | .queueSlotFree _ => none
  | .preq _ _ _ => none
  | .preemptForce _ => none
  | .suspendStore _ => none
  | .suspendSave _ => none
  | .fabricSave _ => none
  | .resumePlace _ => none
  | .bootlr _ _ => none
  | .hvec _ _ => none
  | .coldReset => none
  | .moduleReset _ => none
  | .bootStageDone _ => none
  | .releaseDies _ => none
  | .dumpclr _ => none
  | .svncommit _ => none
  | .retireTile _ => none
  | .retireDone => none
  | .partcfg _ => none
  | .securityAlarm _ => none
  | .fatalError _ _ => none
  | .watchdogExpire _ => none
  | .governorWindow _ _ _ => none
  | .patrolScrub _ _ => none
  | .softError _ => none
  | .pageWalk _ _ _ => none
  | .getVersion => none
  | .getCapabilities => none
  | .negotiateAlgorithms => none
  | .getDigests => none
  | .getCertificate => none
  | .challenge _ => none
  | .getMeasurements _ _ => none
  | .transferImage _ => none
  | .verifyImage => none
  | .activateFirmware _ => none
  | .getSensorReading _ _ => none
  | .cxlMemRead _ _ _ _ => none
  | .cxlMemWrite _ _ _ _ => none
  | .cxlSnoop _ _ _ => none
  | .bisnpComplete _ _ _ => none
  | .cxlConfigRead _ => none
  | .domid _ => none
  | .registerWrite _ _ => none
  | .illegalInstruction _ => none
  | .fetchPageFault => none
  | .vectorQueueAdvance _ => none
  | .accessPerformed _ => none

/-! ## The host's reading -/

/-- The instruction that the first nbits bits of w encode: the machine's words have 32 bits. -/
noncomputable def decodeTableWord (nbits w : Nat) : Option Instr :=
  if nbits ≤ 32 ∧ w < 2 ^ nbits then
    match decode (BitVec.ofNat 32 w) with
    | .ok i => some i
    | .reject _ => none
  else none

end Sys2Proof
end

