-- ==== Sys2Proof/Machine/System.lean ====
section
/-!
DEFINITION. The system instructions, majors 0x39 and 0x3A: BRK, SYSCALL, TABORT (R242), TLBI and cache
maintenance (R243, R369 to R372); and the walk of a page (R364 to R370).
-/

namespace Sys2Proof.Machine

/-! ## Major 0x39 -/

/-- BRK: Breakpoint, with EPC at the BRK (R242). -/
def execBrk (code : BitVec 12) (s : State) : Host.Outcome State Fault Refusal :=
  .next (s.enterTrap (Trap.sync 0x14 (zext code)))

/-- SYSCALL: System Call, with EPC at the next instruction (R242). -/
def execSyscall (code : BitVec 12) (s : State) : Host.Outcome State Fault Refusal :=
  .next (s.enterTrap { Trap.sync 0x16 (zext code) with epc := some (s.me.pc + 4) })

/-- TABORT: ends the task in the trap; a completion write that fails its checks is a trap of the TABORT (R242). -/
def execTabort (a : Reg) (s : State) : Host.Outcome State Fault Refusal :=
  let exit : BitVec 16 := (s.readG a).setWidth 16
  (s.needSup.bind fun _ s => (s.abortHead s.cur).bind fun _ s =>
    (s.abortWrite s.cur exit).bind fun _ s => .ok () (s.abortTail s.cur)).finish

/-! ## TLBI (R243, R369 to R372) -/

/-- The state without the translations for which drop holds, in every tile of the module. -/
def State.dropTlb (s : State) (drop : TlbEnt → Bool) : State :=
  { s with tiles := s.tiles.map fun e =>
      (e.1, { e.2 with tlb := e.2.tlb.filter fun t => !drop t, l1tlb := e.2.l1tlb.filter fun t => !drop t }) }

/-- The lane accesses of a cell's operations that are still to be performed (R261). -/
def Cell.underWay (c : Cell) : List LaneAcc :=
  (c.ops.filter fun o => !o.done && o.got.isNone).flatMap fun o => o.acc.toList.filterMap id

/-- Whether an access that was translated through an entry for which drop holds is still to be performed: one of a resumed
instruction or cell that holds its translation, or one that a cell has fired (R171, R243, R261, R371). -/
def State.translationHeld (s : State) (drop : TlbEnt → Bool) : Bool :=
  (s.strands.any fun e => e.2.kept.any fun x => drop x.2) || (s.kept.any fun x => drop x.2) ||
  s.tiles.any fun e => e.2.active.any fun l => l.cells.any fun c => c.2.underWay.any fun a => a.ent.any drop

/-- A TLBI: at supervisor level, once the strand's earlier stores have been performed, and every access that was translated
through an entry that goes (R243, R371). -/
def State.tlbi (s : State) (drop : TlbEnt → Bool) : Res Unit :=
  (s.needSup.bind fun _ s => s.needPerformed.bind fun _ s =>
    if s.translationHeld drop then .wait s else .ok () (s.dropTlb drop)).retire

/-- Whether an entry's page holds an address. -/
def TlbEnt.holds (t : TlbEnt) (va : Word) : Bool := decide (t.va ≤ va.toNat) && decide (va.toNat < t.va + t.size)

/-- TLBI.ALL: every entry of every ASID. -/
def execTlbiAll (s : State) : Host.Outcome State Fault Refusal := (s.tlbi fun _ => true).finish

/-- TLBI.AS: every entry of an ASID; global entries belong to none and stay (R372). -/
def execTlbiAs (a : Reg) (s : State) : Host.Outcome State Fault Refusal :=
  let asid : BitVec 16 := (s.readG a).setWidth 16
  (s.tlbi fun t => !t.glob && t.asid == asid).finish

/-- TLBI.VA: the entry of an ASID, or the global one, whose page holds g_a (R372). -/
def execTlbiVa (d a : Reg) (s : State) : Host.Outcome State Fault Refusal :=
  let asid : BitVec 16 := (s.readG d).setWidth 16
  let va := s.readG a
  (s.tlbi fun t => t.serves asid va).finish

/-- TLBI.VAALL: the entries of every ASID whose page holds g_a. -/
def execTlbiVaall (a : Reg) (s : State) : Host.Outcome State Fault Refusal :=
  let va := s.readG a
  (s.tlbi fun t => t.holds va).finish

/-! ## Cache maintenance (R243) -/

/-- The state without the copies of a line that some caches hold. -/
def State.dropCopies (s : State) (l : Nat) (gone : Cache → Bool) : State :=
  let d' := s.lineWithout l gone
  if d' = s.dirLine l then s else { s with dir := s.dir.put l d' }

/-- CLEAN or FLUSH of the line that holds va: translated as a load, and dropped where that would fault or names no line that the
directories manage (R138, R243, R370). The copies stay, with nothing dirty, or leave the tile's L1D and the die's L2. -/
def State.maintain (s : State) (va : Word) (drop : Bool) : Res Unit :=
  let c := s.ctx
  match s.translate c va .load with
  | (.fail _, s) => .ok () s
  | (.hold, s) => .wait s
  | (.ok pa _ _, s) =>
    let p := s.resolveAlias (placeOf c.tile pa)
    if !p.coherent || !s.mayReach c.tile p then .ok () s
    else
      let d := s.dirLine (lineOf p.key)
      let s := if d.dlo || d.dhi then { s with dir := s.dir.put (lineOf p.key) { d with dlo := false, dhi := false } } else s
      .ok () (if drop then s.dropCopies (lineOf p.key) fun x => x == .l1d c.tile || x == .l2 (dieOf c.tile) else s)

/-- The directory state once every copy that some caches hold is gone, an owner's written back to its home. -/
def State.flushCaches (s : State) (gone : Cache → Bool) : State :=
  { s with dir := s.dir.map fun e =>
      (e.1, if e.2.copies.any gone then (if e.2.mod = .o then e.2.without gone else s.lineWithout e.1 gone) else e.2) }

/-- CLEAN: the dirty line is written back; copies stay valid. -/
def execClean (a : Reg) (s : State) : Host.Outcome State Fault Refusal := (s.maintain (s.readG a) false).retire.finish

/-- FLUSH: as CLEAN, and the line leaves the tile's L1D and the die's L2. -/
def execFlush (a : Reg) (s : State) : Host.Outcome State Fault Refusal := (s.maintain (s.readG a) true).retire.finish

/-- FLUSH.L1: the whole L1D of the issuing tile. -/
def execFlushL1 (s : State) : Host.Outcome State Fault Refusal :=
  (s.needSup.bind fun _ s => .ok () (s.flushCaches fun x => x == .l1d s.myTile)).retire.finish

/-- FLUSH.L2: the L2 of the issuing die. -/
def execFlushL2 (s : State) : Host.Outcome State Fault Refusal :=
  (s.needSup.bind fun _ s => .ok () (s.flushCaches fun x => x == .l2 (dieOf s.myTile))).retire.finish

/-! ## Walks (R364 to R370) -/

/-- PAGE_WALK: a walk for an access of a strand ends; it sets A and installs its entry in the place of the one that was
there, or fails, and then nothing is installed (R368 to R370). The access that asked for it takes the fault itself. -/
def execPageWalk (k : Nat) (va : Word) (kind : AccKind) (s : State) : Host.Outcome State Fault Refusal :=
  let c := s.ctxOf k
  if field va 57 7 ≠ 0 ∨ c.root = 0 then .next s
  else .next (s.translateFresh c va kind).2

end Sys2Proof.Machine
end

