-- ==== Sys2Proof/Machine/Return.lean ====
section
/-!
DEFINITION. ERET (R241), and what the instruction that it returns to holds from then on: the translations of the elements or the
row at which it resumes (R171, R182, R198).
-/

namespace Sys2Proof.Machine

/-- The state in which a vector memory instruction that is resumed holds the translations of its elements: those of R171, and every
page for a VLW into v31 (R182). -/
def State.holdVector (s : State) (i : Instr) : State :=
  let index (w : Width4) (a x : Reg) (e : Nat) : List Word :=
    [indexedAddr (s.readG a) (s.elem x (width4Bits w) e) (width4Bits w / 8)]
  match i with
  | .vld w _ a k | .vldFf w _ a _ k => s.holdElems (widthBits w) k .load (plainUnits (s.readG a) (widthBits w))
  | .vst w _ a k => s.holdElems (widthBits w) k .store (plainUnits (s.readG a) (widthBits w))
  | .vlds w _ a x k => s.holdElems (width4Bits w) k .load fun e => [strideAddr (s.readG a) (s.readG x) e]
  | .vsts w _ a x k => s.holdElems (width4Bits w) k .store fun e => [strideAddr (s.readG a) (s.readG x) e]
  | .vgather w _ a x k | .vgatherNb w _ a x k => s.holdElems (width4Bits w) k .load (index w a x)
  | .vscatter w _ a x k => s.holdElems (width4Bits w) k .store (index w a x)
  | .vlseg w n _ a k => s.holdElems (width4Bits w) k .load (segUnits (s.readG a) (n.toNat + 1) (width4Bits w / 8))
  | .vsseg w n _ a k => s.holdElems (width4Bits w) k .store (segUnits (s.readG a) (n.toNat + 1) (width4Bits w / 8))
  | .vlw t d a k =>
    let units := plainUnits (s.readG a) (vlwSource t).1.bits
    if d = 31 then s.holdAll .load units (s.pendingElems 16 k) else s.holdElems 16 k .load units
  | _ => s

/-- The form of an accumulator access by its func in major 0x33: view width, bytes of an element, kind (R197). -/
def accForm (f : Nat) : Option (Nat × Nat × AccKind) :=
  match f with
  | 0 | 3 => some (32, 4, .load)
  | 1 | 4 => some (64, 8, .load)
  | 2 => some (32, 2, .load)
  | 5 => some (32, 4, .store)
  | 6 => some (64, 8, .store)
  | 7 => some (32, 2, .store)
  | _ => none

/-- The same for an accumulator load or store: the translations of the row that TROW names (R198). -/
def State.holdAcc (s : State) (w : IWord) : State :=
  match accForm (field w 0 4) with
  | some (view, z, kind) =>
    s.holdRow kind (fun i => (s.maskOn (vk w).num 64).map fun j => accAddr (s.readG (mxA w)) (s.readG (mxB w)) z i j)
      (s.maskOn (mxR w) (min s.vlen (viewRows view)))
  | none => s

/-- The state in which the instruction at the pc, if it is resumed, holds its translations; with translation off there are none
(R171, R198; log 112). -/
def State.holdResumed (s : State) : State :=
  if !s.me.resume || s.me.root == 0 then s
  else match s.wordAt s.cur with
    | none => s
    | some w =>
      let on (i : Decoded) : State := match i with
        | .ok i => s.holdVector i
        | .reject _ => s
      match field w 26 6 with
      | 0x2C => on (decode2C w)
      | 0x2D => on (decode2D w)
      | 0x2E => on (decode2E w)
      | 0x2F => on (decode2F w)
      | 0x33 => s.holdAcc w
      | _ => s

/-- ERET: the owner's fabric loads take up again, then the strand returns (R241, R251, R274), and the instruction at EPC is resumed
under held translations (R171, R198). -/
def execEret (s : State) : Host.Outcome State Fault Refusal :=
  (s.needSup.bind fun _ s => (s.eretLoads s.cur).bind fun _ s => .ok () (s.mapMe Strand.returned).holdResumed).finish

end Sys2Proof.Machine
end

