-- ==== Sys2Proof/Machine/Dispatch.lean ====
section
/-!
DEFINITION. The dispatch: one arm for each constructor of Instr.
-/

namespace Sys2Proof.Machine

/-- The step of one instruction or event, on the strand that issues. -/
def exec (i : Instr) (s : State) : Host.Outcome State Fault Refusal :=
  match i with
  | .add d a b => Sys2Proof.Machine.execAdd d a b s
  | .sub d a b => Sys2Proof.Machine.execSub d a b s
  | .and d a b => Sys2Proof.Machine.execAnd d a b s
  | .or d a b => Sys2Proof.Machine.execOr d a b s
  | .xor d a b => Sys2Proof.Machine.execXor d a b s
  | .nor d a b => Sys2Proof.Machine.execNor d a b s
  | .andn d a b => Sys2Proof.Machine.execAndn d a b s
  | .orn d a b => Sys2Proof.Machine.execOrn d a b s
  | .sll d a b => Sys2Proof.Machine.execSll d a b s
  | .srl d a b => Sys2Proof.Machine.execSrl d a b s
  | .sra d a b => Sys2Proof.Machine.execSra d a b s
  | .ror d a b => Sys2Proof.Machine.execRor d a b s
  | .setlt d a b => Sys2Proof.Machine.execSetlt d a b s
  | .setltn d a b => Sys2Proof.Machine.execSetltn d a b s
  | .seteq d a b => Sys2Proof.Machine.execSeteq d a b s
  | .setne d a b => Sys2Proof.Machine.execSetne d a b s
  | .min d a b => Sys2Proof.Machine.execMin d a b s
  | .max d a b => Sys2Proof.Machine.execMax d a b s
  | .minu d a b => Sys2Proof.Machine.execMinu d a b s
  | .maxu d a b => Sys2Proof.Machine.execMaxu d a b s
  | .add32 d a b => Sys2Proof.Machine.execAdd32 d a b s
  | .sub32 d a b => Sys2Proof.Machine.execSub32 d a b s
  | .sll32 d a b => Sys2Proof.Machine.execSll32 d a b s
  | .srl32 d a b => Sys2Proof.Machine.execSrl32 d a b s
  | .sra32 d a b => Sys2Proof.Machine.execSra32 d a b s
  | .addo d a b => Sys2Proof.Machine.execAddo d a b s
  | .subo d a b => Sys2Proof.Machine.execSubo d a b s
  | .addsc1 d a b => Sys2Proof.Machine.execAddsc1 d a b s
  | .addsc2 d a b => Sys2Proof.Machine.execAddsc2 d a b s
  | .addsc3 d a b => Sys2Proof.Machine.execAddsc3 d a b s
  | .mul d a b => Sys2Proof.Machine.execMul d a b s
  | .mulhs d a b => Sys2Proof.Machine.execMulhs d a b s
  | .mulhn d a b => Sys2Proof.Machine.execMulhn d a b s
  | .mulhsn d a b => Sys2Proof.Machine.execMulhsn d a b s
  | .mul32 d a b => Sys2Proof.Machine.execMul32 d a b s
  | .divs d a b => Sys2Proof.Machine.execDivs d a b s
  | .divn d a b => Sys2Proof.Machine.execDivn d a b s
  | .rems d a b => Sys2Proof.Machine.execRems d a b s
  | .remn d a b => Sys2Proof.Machine.execRemn d a b s
  | .divs32 d a b => Sys2Proof.Machine.execDivs32 d a b s
  | .divn32 d a b => Sys2Proof.Machine.execDivn32 d a b s
  | .rems32 d a b => Sys2Proof.Machine.execRems32 d a b s
  | .remn32 d a b => Sys2Proof.Machine.execRemn32 d a b s
  | .clz d a => Sys2Proof.Machine.execClz d a s
  | .ctz d a => Sys2Proof.Machine.execCtz d a s
  | .popc d a => Sys2Proof.Machine.execPopc d a s
  | .brev d a => Sys2Proof.Machine.execBrev d a s
  | .bswap d a => Sys2Proof.Machine.execBswap d a s
  | .extS d a b => Sys2Proof.Machine.execExtS d a b s
  | .extU d a b => Sys2Proof.Machine.execExtU d a b s
  | .ins d a b => Sys2Proof.Machine.execIns d a b s
  | .clz32 d a => Sys2Proof.Machine.execClz32 d a s
  | .ctz32 d a => Sys2Proof.Machine.execCtz32 d a s
  | .popc32 d a => Sys2Proof.Machine.execPopc32 d a s
  | .bswap32 d a => Sys2Proof.Machine.execBswap32 d a s
  | .addi d a imm => Sys2Proof.Machine.execAddi d a imm s
  | .andi d a imm => Sys2Proof.Machine.execAndi d a imm s
  | .ori d a imm => Sys2Proof.Machine.execOri d a imm s
  | .xori d a imm => Sys2Proof.Machine.execXori d a imm s
  | .setlti d a imm => Sys2Proof.Machine.execSetlti d a imm s
  | .setltni d a imm => Sys2Proof.Machine.execSetltni d a imm s
  | .slli d a n => Sys2Proof.Machine.execSlli d a n s
  | .srli d a n => Sys2Proof.Machine.execSrli d a n s
  | .srai d a n => Sys2Proof.Machine.execSrai d a n s
  | .rori d a n => Sys2Proof.Machine.execRori d a n s
  | .lui d imm => Sys2Proof.Machine.execLui d imm s
  | .addpc d imm => Sys2Proof.Machine.execAddpc d imm s
  | .shori d a imm => Sys2Proof.Machine.execShori d a imm s
  | .fadd p d a b => Sys2Proof.Machine.execFadd p d a b s
  | .fsub p d a b => Sys2Proof.Machine.execFsub p d a b s
  | .fmul p d a b => Sys2Proof.Machine.execFmul p d a b s
  | .fdiv p d a b => Sys2Proof.Machine.execFdiv p d a b s
  | .fsqrt p d a => Sys2Proof.Machine.execFsqrt p d a s
  | .fmin p d a b => Sys2Proof.Machine.execFmin p d a b s
  | .fmax p d a b => Sys2Proof.Machine.execFmax p d a b s
  | .fmac p d a b => Sys2Proof.Machine.execFmac p d a b s
  | .fmsc p d a b => Sys2Proof.Machine.execFmsc p d a b s
  | .fcmpeq p d a b => Sys2Proof.Machine.execFcmpeq p d a b s
  | .fcmplt p d a b => Sys2Proof.Machine.execFcmplt p d a b s
  | .fcmple p d a b => Sys2Proof.Machine.execFcmple p d a b s
  | .fkind p d a => Sys2Proof.Machine.execFkind p d a s
  | .fcvti p rtz d a => Sys2Proof.Machine.execFcvti p rtz d a s
  | .fcvtiu p rtz d a => Sys2Proof.Machine.execFcvtiu p rtz d a s
  | .fcvtf p d a => Sys2Proof.Machine.execFcvtf p d a s
  | .fcvtfu p d a => Sys2Proof.Machine.execFcvtfu p d a s
  | .fcvtp p d a => Sys2Proof.Machine.execFcvtp p d a s
  | .fcopys p d a b => Sys2Proof.Machine.execFcopys p d a b s
  | .fcopysn p d a b => Sys2Proof.Machine.execFcopysn p d a b s
  | .jalr d a imm => Sys2Proof.Machine.execJalr d a imm s
  | .beq a b off => Sys2Proof.Machine.execBeq a b off s
  | .bne a b off => Sys2Proof.Machine.execBne a b off s
  | .blt a b off => Sys2Proof.Machine.execBlt a b off s
  | .bge a b off => Sys2Proof.Machine.execBge a b off s
  | .bltu a b off => Sys2Proof.Machine.execBltu a b off s
  | .bgeu a b off => Sys2Proof.Machine.execBgeu a b off s
  | .j off => Sys2Proof.Machine.execJ off s
  | .jal off => Sys2Proof.Machine.execJal off s
  | .ld d a disp => Sys2Proof.Machine.execLd d a disp s
  | .lw d a disp => Sys2Proof.Machine.execLw d a disp s
  | .lwu d a disp => Sys2Proof.Machine.execLwu d a disp s
  | .sd d a disp => Sys2Proof.Machine.execSd d a disp s
  | .sw d a disp => Sys2Proof.Machine.execSw d a disp s
  | .prfRd a disp => Sys2Proof.Machine.execPrfRd a disp s
  | .prfWr a disp => Sys2Proof.Machine.execPrfWr a disp s
  | .lb d a b => Sys2Proof.Machine.execLb d a b s
  | .lbu d a b => Sys2Proof.Machine.execLbu d a b s
  | .lh d a b => Sys2Proof.Machine.execLh d a b s
  | .lhu d a b => Sys2Proof.Machine.execLhu d a b s
  | .sb d a b => Sys2Proof.Machine.execSb d a b s
  | .sh d a b => Sys2Proof.Machine.execSh d a b s
  | .lr q d a => Sys2Proof.Machine.execLr q d a s
  | .sc q d a b => Sys2Proof.Machine.execSc q d a b s
  | .amoswap q d a b => Sys2Proof.Machine.execAmoswap q d a b s
  | .amoadd q d a b => Sys2Proof.Machine.execAmoadd q d a b s
  | .amoand q d a b => Sys2Proof.Machine.execAmoand q d a b s
  | .amoor q d a b => Sys2Proof.Machine.execAmoor q d a b s
  | .amoxor q d a b => Sys2Proof.Machine.execAmoxor q d a b s
  | .amomin q d a b => Sys2Proof.Machine.execAmomin q d a b s
  | .amomax q d a b => Sys2Proof.Machine.execAmomax q d a b s
  | .amominu q d a b => Sys2Proof.Machine.execAmominu q d a b s
  | .amomaxu q d a b => Sys2Proof.Machine.execAmomaxu q d a b s
  | .amocas q d a b => Sys2Proof.Machine.execAmocas q d a b s
  | .setvl w d a => Sys2Proof.Machine.execSetvl w d a s
  | .vsplat t d a k => Sys2Proof.Machine.execVsplat t d a k s
  | .vmvg t d a b => Sys2Proof.Machine.execVmvg t d a b s
  | .vmvv t d a b => Sys2Proof.Machine.execVmvv t d a b s
  | .vid t d k => Sys2Proof.Machine.execVid t d k s
  | .vmv t d a k => Sys2Proof.Machine.execVmv t d a k s
  | .vmerge t d a b mk => Sys2Proof.Machine.execVmerge t d a b mk s
  | .mand d a b => Sys2Proof.Machine.execMand d a b s
  | .mor d a b => Sys2Proof.Machine.execMor d a b s
  | .mxor d a b => Sys2Proof.Machine.execMxor d a b s
  | .mandn d a b => Sys2Proof.Machine.execMandn d a b s
  | .morn d a b => Sys2Proof.Machine.execMorn d a b s
  | .mnot d a => Sys2Proof.Machine.execMnot d a s
  | .mset d => Sys2Proof.Machine.execMset d s
  | .mclr d => Sys2Proof.Machine.execMclr d s
  | .vffs d a k => Sys2Proof.Machine.execVffs d a k s
  | .vpopc d a k => Sys2Proof.Machine.execVpopc d a k s
  | .vmprefix t d a k => Sys2Proof.Machine.execVmprefix t d a k s
  | .vshup t d a b k => Sys2Proof.Machine.execVshup t d a b k s
  | .vshdn t d a b k => Sys2Proof.Machine.execVshdn t d a b k s
  | .vperm t d a b k => Sys2Proof.Machine.execVperm t d a b k s
  | .vpackm t d a mk => Sys2Proof.Machine.execVpackm t d a mk s
  | .vreshape t d a b => Sys2Proof.Machine.execVreshape t d a b s
  | .vbcast t d a b k => Sys2Proof.Machine.execVbcast t d a b k s
  | .vadd t d a b k => Sys2Proof.Machine.execVadd t d a b k s
  | .vsub t d a b k => Sys2Proof.Machine.execVsub t d a b k s
  | .vmul t d a b k => Sys2Proof.Machine.execVmul t d a b k s
  | .vmulh t d a b k => Sys2Proof.Machine.execVmulh t d a b k s
  | .vdiv t d a b k => Sys2Proof.Machine.execVdiv t d a b k s
  | .vrem t d a b k => Sys2Proof.Machine.execVrem t d a b k s
  | .vmin t d a b k => Sys2Proof.Machine.execVmin t d a b k s
  | .vmax t d a b k => Sys2Proof.Machine.execVmax t d a b k s
  | .vand t d a b k => Sys2Proof.Machine.execVand t d a b k s
  | .vor t d a b k => Sys2Proof.Machine.execVor t d a b k s
  | .vxor t d a b k => Sys2Proof.Machine.execVxor t d a b k s
  | .vsll t d a b k => Sys2Proof.Machine.execVsll t d a b k s
  | .vsr t d a b k => Sys2Proof.Machine.execVsr t d a b k s
  | .vadds t d a b k => Sys2Proof.Machine.execVadds t d a b k s
  | .vsubs t d a b k => Sys2Proof.Machine.execVsubs t d a b k s
  | .vmac t d a b k => Sys2Proof.Machine.execVmac t d a b k s
  | .vseq t d a b k => Sys2Proof.Machine.execVseq t d a b k s
  | .vsne t d a b k => Sys2Proof.Machine.execVsne t d a b k s
  | .vslt t d a b k => Sys2Proof.Machine.execVslt t d a b k s
  | .vsle t d a b k => Sys2Proof.Machine.execVsle t d a b k s
  | .vsgt t d a b k => Sys2Proof.Machine.execVsgt t d a b k s
  | .vsge t d a b k => Sys2Proof.Machine.execVsge t d a b k s
  | .vfadd t d a b k => Sys2Proof.Machine.execVfadd t d a b k s
  | .vfsub t d a b k => Sys2Proof.Machine.execVfsub t d a b k s
  | .vfmul t d a b k => Sys2Proof.Machine.execVfmul t d a b k s
  | .vfdiv t d a b k => Sys2Proof.Machine.execVfdiv t d a b k s
  | .vfsqrt t d a k => Sys2Proof.Machine.execVfsqrt t d a k s
  | .vfmin t d a b k => Sys2Proof.Machine.execVfmin t d a b k s
  | .vfmax t d a b k => Sys2Proof.Machine.execVfmax t d a b k s
  | .vfmac t d a b k => Sys2Proof.Machine.execVfmac t d a b k s
  | .vfmsc t d a b k => Sys2Proof.Machine.execVfmsc t d a b k s
  | .vfcopys t d a b k => Sys2Proof.Machine.execVfcopys t d a b k s
  | .vfcopysn t d a b k => Sys2Proof.Machine.execVfcopysn t d a b k s
  | .vfcmpeq t d a b k => Sys2Proof.Machine.execVfcmpeq t d a b k s
  | .vfcmpne t d a b k => Sys2Proof.Machine.execVfcmpne t d a b k s
  | .vfcmplt t d a b k => Sys2Proof.Machine.execVfcmplt t d a b k s
  | .vfcmple t d a b k => Sys2Proof.Machine.execVfcmple t d a b k s
  | .vfkind t d a k => Sys2Proof.Machine.execVfkind t d a k s
  | .vcvt f d a k => Sys2Proof.Machine.execVcvt f d a k s
  | .vredAdd t d a b k => Sys2Proof.Machine.execVredAdd t d a b k s
  | .vredMin t d a b k => Sys2Proof.Machine.execVredMin t d a b k s
  | .vredMax t d a b k => Sys2Proof.Machine.execVredMax t d a b k s
  | .vredAnd t d a b k => Sys2Proof.Machine.execVredAnd t d a b k s
  | .vredOr t d a b k => Sys2Proof.Machine.execVredOr t d a b k s
  | .vredXor t d a b k => Sys2Proof.Machine.execVredXor t d a b k s
  | .vfredTree t d a b k => Sys2Proof.Machine.execVfredTree t d a b k s
  | .vfredSeq t d a b k => Sys2Proof.Machine.execVfredSeq t d a b k s
  | .vfredMin t d a b k => Sys2Proof.Machine.execVfredMin t d a b k s
  | .vfredMax t d a b k => Sys2Proof.Machine.execVfredMax t d a b k s
  | .vscan t d a b k => Sys2Proof.Machine.execVscan t d a b k s
  | .vfscan t d a b k => Sys2Proof.Machine.execVfscan t d a b k s
  | .vwadd t d a b k => Sys2Proof.Machine.execVwadd t d a b k s
  | .vwsub t d a b k => Sys2Proof.Machine.execVwsub t d a b k s
  | .vwmul t d a b k => Sys2Proof.Machine.execVwmul t d a b k s
  | .vwmac t d a b k => Sys2Proof.Machine.execVwmac t d a b k s
  | .vfwadd t d a b k => Sys2Proof.Machine.execVfwadd t d a b k s
  | .vfwsub t d a b k => Sys2Proof.Machine.execVfwsub t d a b k s
  | .vfwmul t d a b k => Sys2Proof.Machine.execVfwmul t d a b k s
  | .vfwmac t d a b k => Sys2Proof.Machine.execVfwmac t d a b k s
  | .vdot t d a b k => Sys2Proof.Machine.execVdot t d a b k s
  | .vfdot t d a b k => Sys2Proof.Machine.execVfdot t d a b k s
  | .vaddVs t d a b k => Sys2Proof.Machine.execVaddVs t d a b k s
  | .vsubVs t d a b k => Sys2Proof.Machine.execVsubVs t d a b k s
  | .vrsubVs t d a b k => Sys2Proof.Machine.execVrsubVs t d a b k s
  | .vmulVs t d a b k => Sys2Proof.Machine.execVmulVs t d a b k s
  | .vminVs t d a b k => Sys2Proof.Machine.execVminVs t d a b k s
  | .vmaxVs t d a b k => Sys2Proof.Machine.execVmaxVs t d a b k s
  | .vandVs t d a b k => Sys2Proof.Machine.execVandVs t d a b k s
  | .vsllVs t d a b k => Sys2Proof.Machine.execVsllVs t d a b k s
  | .vfaddVs t d a b k => Sys2Proof.Machine.execVfaddVs t d a b k s
  | .vfsubVs t d a b k => Sys2Proof.Machine.execVfsubVs t d a b k s
  | .vfrsubVs t d a b k => Sys2Proof.Machine.execVfrsubVs t d a b k s
  | .vfmulVs t d a b k => Sys2Proof.Machine.execVfmulVs t d a b k s
  | .vfdivVs t d a b k => Sys2Proof.Machine.execVfdivVs t d a b k s
  | .vfrdivVs t d a b k => Sys2Proof.Machine.execVfrdivVs t d a b k s
  | .vfmacVs t d a b k => Sys2Proof.Machine.execVfmacVs t d a b k s
  | .vfmaxVs t d a b k => Sys2Proof.Machine.execVfmaxVs t d a b k s
  | .vld w d a k => Sys2Proof.Machine.execVld w d a k s
  | .vlds w d a x k => Sys2Proof.Machine.execVlds w d a x k s
  | .vldFf w d a x k => Sys2Proof.Machine.execVldFf w d a x k s
  | .vlw t d a k => Sys2Proof.Machine.execVlw t d a k s
  | .vst w d a k => Sys2Proof.Machine.execVst w d a k s
  | .vsts w d a x k => Sys2Proof.Machine.execVsts w d a x k s
  | .vlseg w n d a k => Sys2Proof.Machine.execVlseg w n d a k s
  | .vsseg w n d a k => Sys2Proof.Machine.execVsseg w n d a k s
  | .vgather w d a x k => Sys2Proof.Machine.execVgather w d a x k s
  | .vscatter w d a x k => Sys2Proof.Machine.execVscatter w d a x k s
  | .vgatherNb w d a x k => Sys2Proof.Machine.execVgatherNb w d a x k s
  | .vlsl w d a x k => Sys2Proof.Machine.execVlsl w d a x k s
  | .vssl w d a x k => Sys2Proof.Machine.execVssl w d a x k s
  | .vsend w d a x k => Sys2Proof.Machine.execVsend w d a x k s
  | .mopa t n a b mr mc grp => Sys2Proof.Machine.execMopa t n a b mr mc grp s
  | .mopaMixed t n a b mr mc grp => Sys2Proof.Machine.execMopaMixed t n a b mr mc grp s
  | .accon n d => Sys2Proof.Machine.execAccon n d s
  | .accoff n => Sys2Proof.Machine.execAccoff n s
  | .accz n => Sys2Proof.Machine.execAccz n s
  | .acczM n mr mc => Sys2Proof.Machine.execAcczM n mr mc s
  | .accmovRv n d b mc grp => Sys2Proof.Machine.execAccmovRv n d b mc grp s
  | .accmovCv n d b mc grp => Sys2Proof.Machine.execAccmovCv n d b mc grp s
  | .accmovVr n a b mc grp => Sys2Proof.Machine.execAccmovVr n a b mc grp s
  | .accmovVc n a b mc grp => Sys2Proof.Machine.execAccmovVc n a b mc grp s
  | .mldF32 n a b mr mc => Sys2Proof.Machine.execMldF32 n a b mr mc s
  | .mldF64 n a b mr mc => Sys2Proof.Machine.execMldF64 n a b mr mc s
  | .mldBf16 n a b mr mc => Sys2Proof.Machine.execMldBf16 n a b mr mc s
  | .mldFfF32 n a b mr mc => Sys2Proof.Machine.execMldFfF32 n a b mr mc s
  | .mldFfF64 n a b mr mc => Sys2Proof.Machine.execMldFfF64 n a b mr mc s
  | .mstF32 n a b mr mc => Sys2Proof.Machine.execMstF32 n a b mr mc s
  | .mstF64 n a b mr mc => Sys2Proof.Machine.execMstF64 n a b mr mc s
  | .mstBf16 n a b mr mc => Sys2Proof.Machine.execMstBf16 n a b mr mc s
  | .fence sm => Sys2Proof.Machine.execFence sm s
  | .fenceAcq sm => Sys2Proof.Machine.execFenceAcq sm s
  | .fenceRel sm => Sys2Proof.Machine.execFenceRel sm s
  | .fenceI => Sys2Proof.Machine.execFenceI s
  | .waita c a b x => Sys2Proof.Machine.execWaita c a b x s
  | .waitaAq c a b x => Sys2Proof.Machine.execWaitaAq c a b x s
  | .engwait => Sys2Proof.Machine.execEngwait s
  | .cpy a b x => Sys2Proof.Machine.execCpy a b x s
  | .kvgather a b x => Sys2Proof.Machine.execKvgather a b x s
  | .kvappend a b x => Sys2Proof.Machine.execKvappend a b x s
  | .fconvD2f a b x => Sys2Proof.Machine.execFconvD2f a b x s
  | .fconvF2d a b x => Sys2Proof.Machine.execFconvF2d a b x s
  | .sfbag a b x => Sys2Proof.Machine.execSfbag a b x s
  | .sbind a b => Sys2Proof.Machine.execSbind a b s
  | .sbindGen a b => Sys2Proof.Machine.execSbindGen a b s
  | .srel a => Sys2Proof.Machine.execSrel a s
  | .tload a b => Sys2Proof.Machine.execTload a b s
  | .tswap => Sys2Proof.Machine.execTswap s
  | .tbar a => Sys2Proof.Machine.execTbar a s
  | .tspawn a => Sys2Proof.Machine.execTspawn a s
  | .gang a b => Sys2Proof.Machine.execGang a b s
  | .gangLeave => Sys2Proof.Machine.execGangLeave s
  | .watchBind a b => Sys2Proof.Machine.execWatchBind a b s
  | .watchArm a => Sys2Proof.Machine.execWatchArm a s
  | .watchDisarm a => Sys2Proof.Machine.execWatchDisarm a s
  | .watchUnbind a => Sys2Proof.Machine.execWatchUnbind a s
  | .endTask a => Sys2Proof.Machine.execEndTask a s
  | .csrr d csr => Sys2Proof.Machine.execCsrr d csr s
  | .csrw d a csr => Sys2Proof.Machine.execCsrw d a csr s
  | .csrs d a csr => Sys2Proof.Machine.execCsrs d a csr s
  | .csrc d a csr => Sys2Proof.Machine.execCsrc d a csr s
  | .eret => Sys2Proof.Machine.execEret s
  | .brk code => Sys2Proof.Machine.execBrk code s
  | .syscall code => Sys2Proof.Machine.execSyscall code s
  | .tabort a => Sys2Proof.Machine.execTabort a s
  | .tlbiAll => Sys2Proof.Machine.execTlbiAll s
  | .tlbiAs a => Sys2Proof.Machine.execTlbiAs a s
  | .tlbiVa d a => Sys2Proof.Machine.execTlbiVa d a s
  | .tlbiVaall a => Sys2Proof.Machine.execTlbiVaall a s
  | .clean a => Sys2Proof.Machine.execClean a s
  | .flush a => Sys2Proof.Machine.execFlush a s
  | .flushL1 => Sys2Proof.Machine.execFlushL1 s
  | .flushL2 => Sys2Proof.Machine.execFlushL2 s
  | .trellisCycle tile stall => Sys2Proof.Machine.execTrellisCycle tile stall s
  | .cellAccessDone tile cell => Sys2Proof.Machine.execCellAccessDone tile cell s
  | .streamPush tile port => Sys2Proof.Machine.execStreamPush tile port s
  | .writePortStore tile port => Sys2Proof.Machine.execWritePortStore tile port s
  | .streamFault tile port => Sys2Proof.Machine.execStreamFault tile port s
  | .streamRelease tile port => Sys2Proof.Machine.execStreamRelease tile port s
  | .reservationSplit tile port => Sys2Proof.Machine.execReservationSplit tile port s
  | .deadlockDetect tile => Sys2Proof.Machine.execDeadlockDetect tile s
  | .fabricFreeze tile => Sys2Proof.Machine.execFabricFreeze tile s
  | .engineAccept strand => Sys2Proof.Machine.execEngineAccept strand s
  | .engineComplete cmd => Sys2Proof.Machine.execEngineComplete cmd s
  | .engineFault cmd err => Sys2Proof.Machine.execEngineFault cmd err s
  | .trainAck strand => Sys2Proof.Machine.execTrainAck strand s
  | .deferredError strand poison addr => Sys2Proof.Machine.execDeferredError strand poison addr s
  | .remoteTimeout strand performed => Sys2Proof.Machine.execRemoteTimeout strand performed s
  | .asyncTrap strand => Sys2Proof.Machine.execAsyncTrap strand s
  | .setvlRetry strand => Sys2Proof.Machine.execSetvlRetry strand s
  | .waitaWake strand => Sys2Proof.Machine.execWaitaWake strand s
  | .waitaTimeout strand => Sys2Proof.Machine.execWaitaTimeout strand s
  | .endProceed strand => Sys2Proof.Machine.execEndProceed strand s
  | .tswapProceed strand => Sys2Proof.Machine.execTswapProceed strand s
  | .lrReservationExpire strand => Sys2Proof.Machine.execLrReservationExpire strand s
  | .watchTrigger idx => Sys2Proof.Machine.execWatchTrigger idx s
  | .dispatchPlace die => Sys2Proof.Machine.execDispatchPlace die s
  | .agingPromote die slot => Sys2Proof.Machine.execAgingPromote die slot s
  | .gangReserve die slot => Sys2Proof.Machine.execGangReserve die slot s
  | .queueSlotFree die => Sys2Proof.Machine.execQueueSlotFree die s
  | .preq die w bits => Sys2Proof.Machine.execPreq die w bits s
  | .preemptForce strand => Sys2Proof.Machine.execPreemptForce strand s
  | .suspendStore addr => Sys2Proof.Machine.execSuspendStore addr s
  | .suspendSave strand => Sys2Proof.Machine.execSuspendSave strand s
  | .fabricSave tile => Sys2Proof.Machine.execFabricSave tile s
  | .resumePlace die => Sys2Proof.Machine.execResumePlace die s
  | .bootlr die addr => Sys2Proof.Machine.execBootlr die addr s
  | .hvec die addr => Sys2Proof.Machine.execHvec die addr s
  | .coldReset => Sys2Proof.Machine.execColdReset s
  | .moduleReset bits => Sys2Proof.Machine.execModuleReset bits s
  | .bootStageDone ok => Sys2Proof.Machine.execBootStageDone ok s
  | .releaseDies bits => Sys2Proof.Machine.execReleaseDies bits s
  | .dumpclr bits => Sys2Proof.Machine.execDumpclr bits s
  | .svncommit bits => Sys2Proof.Machine.execSvncommit bits s
  | .retireTile bits => Sys2Proof.Machine.execRetireTile bits s
  | .retireDone => Sys2Proof.Machine.execRetireDone s
  | .partcfg bits => Sys2Proof.Machine.execPartcfg bits s
  | .securityAlarm sensor => Sys2Proof.Machine.execSecurityAlarm sensor s
  | .fatalError cause unit => Sys2Proof.Machine.execFatalError cause unit s
  | .watchdogExpire die => Sys2Proof.Machine.execWatchdogExpire die s
  | .governorWindow die pwr temp => Sys2Proof.Machine.execGovernorWindow die pwr temp s
  | .patrolScrub line corrected => Sys2Proof.Machine.execPatrolScrub line corrected s
  | .softError e => Sys2Proof.Machine.execSoftError e s
  | .pageWalk strand va kind => Sys2Proof.Machine.execPageWalk strand va kind s
  | .getVersion => Sys2Proof.Machine.execGetVersion s
  | .getCapabilities => Sys2Proof.Machine.execGetCapabilities s
  | .negotiateAlgorithms => Sys2Proof.Machine.execNegotiateAlgorithms s
  | .getDigests => Sys2Proof.Machine.execGetDigests s
  | .getCertificate => Sys2Proof.Machine.execGetCertificate s
  | .challenge nonce => Sys2Proof.Machine.execChallenge nonce s
  | .getMeasurements ask nonce => Sys2Proof.Machine.execGetMeasurements ask nonce s
  | .transferImage img => Sys2Proof.Machine.execTransferImage img s
  | .verifyImage => Sys2Proof.Machine.execVerifyImage s
  | .activateFirmware copies => Sys2Proof.Machine.execActivateFirmware copies s
  | .getSensorReading die sensor => Sys2Proof.Machine.execGetSensorReading die sensor s
  | .cxlMemRead r pa n keep => Sys2Proof.Machine.execCxlMemRead r pa n keep s
  | .cxlMemWrite r pa bytes poison => Sys2Proof.Machine.execCxlMemWrite r pa bytes poison s
  | .cxlSnoop pa inv data => Sys2Proof.Machine.execCxlSnoop pa inv data s
  | .bisnpComplete pa inv data => Sys2Proof.Machine.execBisnpComplete pa inv data s
  | .cxlConfigRead off => Sys2Proof.Machine.execCxlConfigRead off s
  | .domid v => Sys2Proof.Machine.execDomid v s
  | .registerWrite x v => Sys2Proof.Machine.execRegisterWrite x v s
  | .illegalInstruction w => Sys2Proof.Machine.execIllegalInstruction w s
  | .fetchPageFault => Sys2Proof.Machine.execFetchPageFault s
  | .vectorQueueAdvance strand => Sys2Proof.Machine.execVectorQueueAdvance strand s
  | .accessPerformed strand => Sys2Proof.Machine.execAccessPerformed strand s

end Sys2Proof.Machine
end

