-- ==== Sys2Proof/WellFormed.lean ====
section
/-!
DEFINITION. Which instructions are well formed: those whose operands an encoding admits (R108, R112, R158, R165), and the
events whose unit numbers the machine has (R18, R221, R245).
-/

namespace Sys2Proof

/-- An atomic with no ordering names no scope (R112). -/
def AmoQual.wf (q : AmoQual) : Bool := q.ord != .none || q.scope == 0

/-- A segment form moves 2 to 8 fields and ends at v31 at the latest (R165); n is the number of fields less one. -/
def segmentOk (n : BitVec 3) (d : Reg) : Bool := n != 0 && decide (d.toNat + n.toNat ≤ 31)

/-- A requester is the host or another module of the domain (R275). -/
def Requester.wf : Requester → Bool
  | .host => true
  | .peer m => decide (m < 64)

/-- The store that a soft error strikes is one the machine has. -/
def SoftErr.wf : SoftErr → Bool
  | .memory _ _ _ => true
  | .scratchpad _ _ _ => true
  | .slice t l h _ => decide (t < 640) && decide (l < 32) && decide (h < 64)
  | .cleanCopy d _ => decide (d < 4)
  | .dirtyCopy d _ _ _ => decide (d < 4)
  | .fetchLine d => decide (d < 4)
  | .registers k _ => decide (k < 2560)
  | .directory u _ _ => decide (u < 4)
  | .dispatcher u _ => decide (u < 4)

/-- The well-formed instructions. -/
def Instr.wf (i : Instr) : Bool :=
  match i with
  | .add _ _ _ => true
  | .sub _ _ _ => true
  | .and _ _ _ => true
  | .or _ _ _ => true
  | .xor _ _ _ => true
  | .nor _ _ _ => true
  | .andn _ _ _ => true
  | .orn _ _ _ => true
  | .sll _ _ _ => true
  | .srl _ _ _ => true
  | .sra _ _ _ => true
  | .ror _ _ _ => true
  | .setlt _ _ _ => true
  | .setltn _ _ _ => true
  | .seteq _ _ _ => true
  | .setne _ _ _ => true
  | .min _ _ _ => true
  | .max _ _ _ => true
  | .minu _ _ _ => true
  | .maxu _ _ _ => true
  | .add32 _ _ _ => true
  | .sub32 _ _ _ => true
  | .sll32 _ _ _ => true
  | .srl32 _ _ _ => true
  | .sra32 _ _ _ => true
  | .addo _ _ _ => true
  | .subo _ _ _ => true
  | .addsc1 _ _ _ => true
  | .addsc2 _ _ _ => true
  | .addsc3 _ _ _ => true
  | .mul _ _ _ => true
  | .mulhs _ _ _ => true
  | .mulhn _ _ _ => true
  | .mulhsn _ _ _ => true
  | .mul32 _ _ _ => true
  | .divs _ _ _ => true
  | .divn _ _ _ => true
  | .rems _ _ _ => true
  | .remn _ _ _ => true
  | .divs32 _ _ _ => true
  | .divn32 _ _ _ => true
  | .rems32 _ _ _ => true
  | .remn32 _ _ _ => true
  | .clz _ _ => true
  | .ctz _ _ => true
  | .popc _ _ => true
  | .brev _ _ => true
  | .bswap _ _ => true
  | .extS _ _ _ => true
  | .extU _ _ _ => true
  | .ins _ _ _ => true
  | .clz32 _ _ => true
  | .ctz32 _ _ => true
  | .popc32 _ _ => true
  | .bswap32 _ _ => true
  | .addi _ _ _ => true
  | .andi _ _ _ => true
  | .ori _ _ _ => true
  | .xori _ _ _ => true
  | .setlti _ _ _ => true
  | .setltni _ _ _ => true
  | .slli _ _ _ => true
  | .srli _ _ _ => true
  | .srai _ _ _ => true
  | .rori _ _ _ => true
  | .lui _ _ => true
  | .addpc _ _ => true
  | .shori _ _ _ => true
  | .fadd _ _ _ _ => true
  | .fsub _ _ _ _ => true
  | .fmul _ _ _ _ => true
  | .fdiv _ _ _ _ => true
  | .fsqrt _ _ _ => true
  | .fmin _ _ _ _ => true
  | .fmax _ _ _ _ => true
  | .fmac _ _ _ _ => true
  | .fmsc _ _ _ _ => true
  | .fcmpeq _ _ _ _ => true
  | .fcmplt _ _ _ _ => true
  | .fcmple _ _ _ _ => true
  | .fkind _ _ _ => true
  | .fcvti _ _ _ _ => true
  | .fcvtiu _ _ _ _ => true
  | .fcvtf _ _ _ => true
  | .fcvtfu _ _ _ => true
  | .fcvtp _ _ _ => true
  | .fcopys _ _ _ _ => true
  | .fcopysn _ _ _ _ => true
  | .jalr _ _ _ => true
  | .beq _ _ _ => true
  | .bne _ _ _ => true
  | .blt _ _ _ => true
  | .bge _ _ _ => true
  | .bltu _ _ _ => true
  | .bgeu _ _ _ => true
  | .j _ => true
  | .jal _ => true
  | .ld _ _ _ => true
  | .lw _ _ _ => true
  | .lwu _ _ _ => true
  | .sd _ _ _ => true
  | .sw _ _ _ => true
  | .prfRd _ _ => true
  | .prfWr _ _ => true
  | .lb _ _ _ => true
  | .lbu _ _ _ => true
  | .lh _ _ _ => true
  | .lhu _ _ _ => true
  | .sb _ _ _ => true
  | .sh _ _ _ => true
  | .lr q _ _ => q.wf
  | .sc q _ _ _ => q.wf
  | .amoswap q _ _ _ => q.wf
  | .amoadd q _ _ _ => q.wf
  | .amoand q _ _ _ => q.wf
  | .amoor q _ _ _ => q.wf
  | .amoxor q _ _ _ => q.wf
  | .amomin q _ _ _ => q.wf
  | .amomax q _ _ _ => q.wf
  | .amominu q _ _ _ => q.wf
  | .amomaxu q _ _ _ => q.wf
  | .amocas q _ _ _ => q.wf
  | .setvl _ _ _ => true
  | .vsplat _ _ _ _ => true
  | .vmvg _ _ _ _ => true
  | .vmvv _ _ _ _ => true
  | .vid _ _ _ => true
  | .vmv _ _ _ _ => true
  | .vmerge _ _ _ _ _ => true
  | .mand _ _ _ => true
  | .mor _ _ _ => true
  | .mxor _ _ _ => true
  | .mandn _ _ _ => true
  | .morn _ _ _ => true
  | .mnot _ _ => true
  | .mset _ => true
  | .mclr _ => true
  | .vffs _ _ _ => true
  | .vpopc _ _ _ => true
  | .vmprefix _ _ _ _ => true
  | .vshup _ _ _ _ _ => true
  | .vshdn _ _ _ _ _ => true
  | .vperm _ _ _ _ _ => true
  | .vpackm _ _ _ _ => true
  | .vreshape _ _ _ _ => true
  | .vbcast _ _ _ _ _ => true
  | .vadd _ _ _ _ _ => true
  | .vsub _ _ _ _ _ => true
  | .vmul _ _ _ _ _ => true
  | .vmulh _ _ _ _ _ => true
  | .vdiv _ _ _ _ _ => true
  | .vrem _ _ _ _ _ => true
  | .vmin _ _ _ _ _ => true
  | .vmax _ _ _ _ _ => true
  | .vand _ _ _ _ _ => true
  | .vor _ _ _ _ _ => true
  | .vxor _ _ _ _ _ => true
  | .vsll _ _ _ _ _ => true
  | .vsr _ _ _ _ _ => true
  | .vadds _ _ _ _ _ => true
  | .vsubs _ _ _ _ _ => true
  | .vmac _ _ _ _ _ => true
  | .vseq _ _ _ _ _ => true
  | .vsne _ _ _ _ _ => true
  | .vslt _ _ _ _ _ => true
  | .vsle _ _ _ _ _ => true
  | .vsgt _ _ _ _ _ => true
  | .vsge _ _ _ _ _ => true
  | .vfadd _ _ _ _ _ => true
  | .vfsub _ _ _ _ _ => true
  | .vfmul _ _ _ _ _ => true
  | .vfdiv _ _ _ _ _ => true
  | .vfsqrt _ _ _ _ => true
  | .vfmin _ _ _ _ _ => true
  | .vfmax _ _ _ _ _ => true
  | .vfmac _ _ _ _ _ => true
  | .vfmsc _ _ _ _ _ => true
  | .vfcopys _ _ _ _ _ => true
  | .vfcopysn _ _ _ _ _ => true
  | .vfcmpeq _ _ _ _ _ => true
  | .vfcmpne _ _ _ _ _ => true
  | .vfcmplt _ _ _ _ _ => true
  | .vfcmple _ _ _ _ _ => true
  | .vfkind _ _ _ _ => true
  | .vcvt f _ _ _ => f.legal
  | .vredAdd _ _ _ _ _ => true
  | .vredMin _ _ _ _ _ => true
  | .vredMax _ _ _ _ _ => true
  | .vredAnd _ _ _ _ _ => true
  | .vredOr _ _ _ _ _ => true
  | .vredXor _ _ _ _ _ => true
  | .vfredTree _ _ _ _ _ => true
  | .vfredSeq _ _ _ _ _ => true
  | .vfredMin _ _ _ _ _ => true
  | .vfredMax _ _ _ _ _ => true
  | .vscan _ _ _ _ _ => true
  | .vfscan _ _ _ _ _ => true
  | .vwadd _ _ _ _ _ => true
  | .vwsub _ _ _ _ _ => true
  | .vwmul _ _ _ _ _ => true
  | .vwmac _ _ _ _ _ => true
  | .vfwadd _ _ _ _ _ => true
  | .vfwsub _ _ _ _ _ => true
  | .vfwmul _ _ _ _ _ => true
  | .vfwmac _ _ _ _ _ => true
  | .vdot _ _ _ _ _ => true
  | .vfdot _ _ _ _ _ => true
  | .vaddVs _ _ _ _ _ => true
  | .vsubVs _ _ _ _ _ => true
  | .vrsubVs _ _ _ _ _ => true
  | .vmulVs _ _ _ _ _ => true
  | .vminVs _ _ _ _ _ => true
  | .vmaxVs _ _ _ _ _ => true
  | .vandVs _ _ _ _ _ => true
  | .vsllVs _ _ _ _ _ => true
  | .vfaddVs _ _ _ _ _ => true
  | .vfsubVs _ _ _ _ _ => true
  | .vfrsubVs _ _ _ _ _ => true
  | .vfmulVs _ _ _ _ _ => true
  | .vfdivVs _ _ _ _ _ => true
  | .vfrdivVs _ _ _ _ _ => true
  | .vfmacVs _ _ _ _ _ => true
  | .vfmaxVs _ _ _ _ _ => true
  | .vld _ _ _ _ => true
  | .vlds _ _ _ _ _ => true
  | .vldFf _ _ _ _ _ => true
  | .vlw _ _ _ _ => true
  | .vst _ _ _ _ => true
  | .vsts _ _ _ _ _ => true
  | .vlseg _ n d _ _ => segmentOk n d
  | .vsseg _ n d _ _ => segmentOk n d
  | .vgather _ _ _ _ _ => true
  | .vscatter _ _ _ _ _ => true
  | .vgatherNb _ _ _ _ _ => true
  | .vlsl _ _ _ _ _ => true
  | .vssl _ _ _ _ _ => true
  | .vsend _ _ _ _ _ => true
  | .mopa _ _ _ _ _ _ _ => true
  | .mopaMixed _ _ _ _ _ _ _ => true
  | .accon _ _ => true
  | .accoff _ => true
  | .accz _ => true
  | .acczM _ _ _ => true
  | .accmovRv _ _ _ _ _ => true
  | .accmovCv _ _ _ _ _ => true
  | .accmovVr _ _ _ _ _ => true
  | .accmovVc _ _ _ _ _ => true
  | .mldF32 _ _ _ _ _ => true
  | .mldF64 _ _ _ _ _ => true
  | .mldBf16 _ _ _ _ _ => true
  | .mldFfF32 _ _ _ _ _ => true
  | .mldFfF64 _ _ _ _ _ => true
  | .mstF32 _ _ _ _ _ => true
  | .mstF64 _ _ _ _ _ => true
  | .mstBf16 _ _ _ _ _ => true
  | .fence _ => true
  | .fenceAcq _ => true
  | .fenceRel _ => true
  | .fenceI => true
  | .waita _ _ _ _ => true
  | .waitaAq _ _ _ _ => true
  | .engwait => true
  | .cpy _ _ _ => true
  | .kvgather _ _ _ => true
  | .kvappend _ _ _ => true
  | .fconvD2f _ _ _ => true
  | .fconvF2d _ _ _ => true
  | .sfbag _ _ _ => true
  | .sbind _ _ => true
  | .sbindGen _ _ => true
  | .srel _ => true
  | .tload _ _ => true
  | .tswap => true
  | .tbar _ => true
  | .tspawn _ => true
  | .gang _ _ => true
  | .gangLeave => true
  | .watchBind _ _ => true
  | .watchArm _ => true
  | .watchDisarm _ => true
  | .watchUnbind _ => true
  | .endTask _ => true
  | .csrr _ _ => true
  | .csrw _ _ _ => true
  | .csrs _ _ _ => true
  | .csrc _ _ _ => true
  | .eret => true
  | .brk _ => true
  | .syscall _ => true
  | .tabort _ => true
  | .tlbiAll => true
  | .tlbiAs _ => true
  | .tlbiVa _ _ => true
  | .tlbiVaall _ => true
  | .clean _ => true
  | .flush _ => true
  | .flushL1 => true
  | .flushL2 => true
  | .trellisCycle tile _ => decide (tile < 640)
  | .cellAccessDone tile cell => decide (tile < 640) && decide (cell < 64)
  | .streamPush tile port => decide (tile < 640) && decide (port < 16)
  | .writePortStore tile port => decide (tile < 640) && decide (port < 16)
  | .streamFault tile port => decide (tile < 640) && decide (port < 16)
  | .streamRelease tile port => decide (tile < 640) && decide (port < 16)
  | .reservationSplit tile port => decide (tile < 640) && decide (port < 16)
  | .deadlockDetect tile => decide (tile < 640)
  | .fabricFreeze tile => decide (tile < 640)
  | .engineAccept strand => decide (strand < 2560)
  | .engineComplete _ => true
  | .engineFault _ _ => true
  | .trainAck strand => decide (strand < 2560)
  | .deferredError strand _ _ => decide (strand < 2560)
  | .remoteTimeout strand _ => decide (strand < 2560)
  | .asyncTrap strand => decide (strand < 2560)
  | .setvlRetry strand => decide (strand < 2560)
  | .waitaWake strand => decide (strand < 2560)
  | .waitaTimeout strand => decide (strand < 2560)
  | .endProceed strand => decide (strand < 2560)
  | .tswapProceed strand => decide (strand < 2560)
  | .lrReservationExpire strand => decide (strand < 2560)
  | .watchTrigger _ => true
  | .dispatchPlace die => decide (die < 4)
  | .agingPromote die _ => decide (die < 4)
  | .gangReserve die _ => decide (die < 4)
  | .queueSlotFree die => decide (die < 4)
  | .preq die w _ => decide (die < 4) && decide (w < 10)
  | .preemptForce strand => decide (strand < 2560)
  | .suspendStore _ => true
  | .suspendSave strand => decide (strand < 2560)
  | .fabricSave tile => decide (tile < 640)
  | .resumePlace die => decide (die < 4)
  | .bootlr die _ => decide (die < 4)
  | .hvec die _ => decide (die < 4)
  | .coldReset => true
  | .moduleReset _ => true
  | .bootStageDone _ => true
  | .releaseDies _ => true
  | .dumpclr _ => true
  | .svncommit _ => true
  | .retireTile _ => true
  | .retireDone => true
  | .partcfg _ => true
  | .securityAlarm _ => true
  | .fatalError _ _ => true
  | .watchdogExpire die => decide (die < 8)
  | .governorWindow die _ _ => decide (die < 4)
  | .patrolScrub _ _ => true
  | .softError e => e.wf
  | .pageWalk strand _ _ => decide (strand < 2560)
  | .getVersion => true
  | .getCapabilities => true
  | .negotiateAlgorithms => true
  | .getDigests => true
  | .getCertificate => true
  | .challenge _ => true
  | .getMeasurements _ _ => true
  | .transferImage _ => true
  | .verifyImage => true
  | .activateFirmware copies => decide (copies ≤ 2)
  | .getSensorReading die _ => decide (die < 4)
  | .cxlMemRead r _ _ _ => r.wf
  | .cxlMemWrite r _ _ _ => r.wf
  | .cxlSnoop _ _ _ => true
  | .bisnpComplete _ _ _ => true
  | .cxlConfigRead _ => true
  | .domid _ => true
  | .registerWrite x _ => decide (x.fn < 4)
  | .illegalInstruction _ => true
  | .fetchPageFault => true
  | .vectorQueueAdvance strand => decide (strand < 2560)
  | .accessPerformed strand => decide (strand < 2560)

end Sys2Proof
end

