-- ==== Sys2Proof/Machine/Step.lean ====
section
/-!
DEFINITION. One step of the module: the next move of the free schedule, or else the strand that issues runs its next
instruction.
-/

namespace Sys2Proof.Machine

/-- Whether the schedule may hold i as an event: no word encodes it, and it is not one of the two traps of a fetched word,
which only a fetch brings about. -/
def isEvent (i : Instr) : Bool :=
  (encode i).isNone && match i with
  | .illegalInstruction _ | .fetchPageFault => false
  | _ => true

/-- The instruction at the pc of the issuing strand: fetched, decoded, executed. -/
noncomputable def issueNext (s : State) : Host.Outcome State Fault Refusal :=
  match s.fetch with
  | .trap _ _ => exec .fetchPageFault s
  | .wait s => .next s
  | .ok w s' =>
    match decode w with
    | .ok i => exec i s'
    | .reject _ => exec (.illegalInstruction w) s'

/-- The next access or unit of an engine's command, while the dies run (R286, R400). -/
def State.engMove (s : State) (f : State → State) : State := if s.diesRun then f s else s

/-- The issuing strand's turn: asynchronous causes come before its next user-level instruction (R239), which issues in a cycle that has
room for it (R20); a strand that does not run does nothing, but for the completion write that a halted one still owes (R240). -/
noncomputable def issue (s : State) : Host.Outcome State Fault Refusal :=
  if !s.diesRun then .next s
  else match s.me.run with
    | .running => if s.asyncReady s.cur then exec (.asyncTrap s.cur) s else issueNext s.issueSlot
    | .aborting exit => .next (s.abortHard s.cur exit)
    | _ => .next s

/-- One step. With no move left in the schedule the issuing strand has its turn, one nanosecond later; a module that is
halted then has nothing left to do, but for Cogor's dump, which it writes by itself (R410; log 1). -/
noncomputable def step (s : State) : Host.Outcome State Fault Refusal :=
  match s.plan with
  | .event i dt :: r =>
    let s := { s with plan := r }.advance dt
    if isEvent i && s.eventRuns i then exec i s else .next s
  | .issue k dt :: r => issue ({ s with plan := r, cur := k }.advance dt)
  | .engRead c n k dt :: r => .next (({ s with plan := r }.advance dt).engMove fun s => s.engReadAhead c n k)
  | .engHold c dt :: r => .next (({ s with plan := r }.advance dt).engMove fun s => s.engHoldLines c)
  | .engUnit c n dt :: r => .next (({ s with plan := r }.advance dt).engMove fun s => s.engUnitAt c n)
  | .outside q dt :: r => .next (({ s with plan := r }.advance dt).serve q)
  | [] => if s.cogor.stage = 7 ∧ s.cogor.dumping.isNone then .fault .moduleHalted else issue (s.advance 1)

/-! ## The host's placing of an instruction -/

/-- The issuing strand made ready to fetch at a usable pc: running, with no cause pending. -/
def Strand.readied (x : Strand) : Strand :=
  { x with run := .running, root := 0, pc := if x.pc.toNat % 4 = 0 ∧ x.pc.toNat < 0xBF_8000_0000 then x.pc else 0,
           pend := Pending.none }

/-- The state with a word stored where the next step fetches its instruction: the strand that issues runs, its fetch
reaches memory untranslated, and no event comes first. It stands for the boot, the launch and the load that bring a task
to its first instruction (log 6). -/
def State.withFetchWord (s : State) (nbits w : Nat) : State :=
  let s := { s with plan := [], cogor := { s.cogor with stage := 6, bringup := 0, dumping := none, activating := none } }
  let s := s.mapMe Strand.readied
  let a := s.me.pc.toNat
  let cfg := if s.samePart (dieOf s.myTile) (.hbm a) then s.cogor.partcfg else 0
  { s with mem := memSetBytes s.mem a (leBytes 4 (w % 2 ^ nbits)), cogor := { s.cogor with partcfg := cfg },
           poison := s.poison.filter fun h => h != halfOf a, dir := s.dir.drop (lineOf a) }

end Sys2Proof.Machine
end

