-- ==== Sys2Proof/Safety.lean ====
section
/-!
DEFINITION. What a run is, what counts as a safe one, and what an instruction leaves as it was: the terms in which
statements about the machine speak.
-/

namespace Sys2Proof

open Machine

/-! ## Runs -/

/-- n steps lead from s to t. -/
inductive Runs : Nat → State → State → Prop
  | here (s : State) : Runs 0 s s
  | more {n : Nat} {s t u : State} : step s = .next t → Runs n t u → Runs (n + 1) s u

/-- The machine goes on from s: its next step is neither a fault nor a refusal. -/
def GoesOn (s : State) : Prop := ∃ t, step s = .next t

/-- A run of n steps from s is safe: it meets neither a fault nor a refusal. -/
def Safe (n : Nat) (s : State) : Prop := ∃ t, Runs n s t

/-- An alarm has halted the module (R408). -/
def AlarmHalt (s : State) : Prop := s.cogor.stage = 7 ∧ s.cogor.err = 5

/-- An alarm halt as the alarm leaves it: the module has met no fatal error, and no dump is being written (R408, R411). -/
def AlarmLatched (s : State) : Prop := AlarmHalt s ∧ s.cogor.fatal = false ∧ s.cogor.dumping = none

/-- An outcome is a next state of which P holds. -/
def Goes (o : Host.Outcome State Fault Refusal) (P : State → Prop) : Prop := ∃ t, o = .next t ∧ P t

/-! ## What stays as it was -/

/-- Nothing differs but strand k: no other strand, no tile, no die, no byte of memory. -/
structure OnlyStrand (k : Nat) (s t : State) : Prop where
  rest : t = { s with strands := t.strands }
  others : ∀ j, j ≠ k → t.strand j = s.strand j
  bytes : ∀ a, memGet t.mem a = memGet s.mem a

/-- Nothing differs but strand k and the lane flags of its tile. -/
structure OnlyStrandAndFlags (k : Nat) (s t : State) : Prop where
  rest : t = { s with strands := t.strands, tiles := t.tiles }
  others : ∀ j, j ≠ k → t.strand j = s.strand j
  tiles : ∀ n, n ≠ tileOf k → t.tile n = s.tile n
  tile : t.tile (tileOf k) = { s.tile (tileOf k) with laneFlags := (t.tile (tileOf k)).laneFlags }
  bytes : ∀ a, memGet t.mem a = memGet s.mem a

/-- A line of which some caches may have given up their copies to make room for others (R59, R60). -/
def Shrunk (d d' : DirLine) : Prop := ∃ l : List Cache, d' = l.foldl (fun d c => d.without fun x => x == c) d

/-- Nothing differs but strand k, the directory's record of the line of the address a, and copies given up to make room for it. -/
structure OnlyStrandAndLine (k a : Nat) (s t : State) : Prop where
  rest : t = { s with strands := t.strands, dir := t.dir }
  others : ∀ j, j ≠ k → t.strand j = s.strand j
  lines : ∀ l, l ≠ lineOf a → Shrunk (s.dirLine l) (t.dirLine l)
  bytes : ∀ b, memGet t.mem b = memGet s.mem b

/-- The n bytes at a now hold x, the lowest byte first, and no other byte differs. Besides that and strand k, only the
directory's record of the line, copies of others given up, triggers sent, and what the write takes from other strands (a reservation of the line, a
sleep on it) may differ. -/
structure Wrote (k a n x : Nat) (s t : State) : Prop where
  rest : t = { s with strands := t.strands, dir := t.dir, triggers := t.triggers, mem := t.mem }
  others : ∀ j, j ≠ k → t.strand j = (s.strand j).meetsWrite (lineOf a) (lineOf (a + n - 1)) false
  lines : ∀ l, l ≠ lineOf a → Shrunk (s.dirLine l) (t.dirLine l)
  sent : ∃ more, t.triggers = s.triggers ++ more
  inside : ∀ i, i < n → memGet t.mem (a + i) = BitVec.ofNat 8 (x / 256 ^ i)
  outside : ∀ b, b < a ∨ a + n ≤ b → memGet t.mem b = memGet s.mem b

/-! ## What an instruction does to its strand -/

/-- The instruction retires in sequence, and in its strand only g register d differs, which reads as v (g0 as zero). -/
structure SetsG (d : Reg) (v : Word) (s t : State) : Prop where
  dest : t.readG d = if d = 0 then 0 else v
  regs : ∀ r, r ≠ d → t.readG r = s.readG r
  strand : t.me = { s.me.retired with g := t.me.g, pc := s.me.pc + 4 }

/-- The instruction retires to address a, and nothing else of its strand differs. -/
def RetiresTo (a : Word) (s t : State) : Prop := t.me = { s.me.retired with pc := a }

/-- The instruction takes trap t0: its strand is as R238 says after a trap entry. -/
def TakesTrap (t0 : Trap) (s t : State) : Prop := t.me = s.me.trapped t0

/-! ## Operands that can be reached -/

/-- The n bytes at va are ordinary memory to an untranslated access from tile t under binding b: aligned, in the part of HBM
that every level may use, in the tile's partition, under nobody else's reservation, a stream's or an engine's, with no copy outside
the module, and not poisoned. -/
structure PlainFor (s : State) (t b : Nat) (va : Word) (n : Nat) : Prop where
  aligned : va.toNat % n = 0
  inHbm : va.toNat < 0xBF_8000_0000
  part : s.samePart (dieOf t) (.hbm va.toNat) = true
  unreserved : ∀ w, s.meets b va.toNat w = none
  unheld : s.engineHolds b va.toNat = false
  inside : s.heldHalves va.toNat = []
  clean : s.isPoisoned va.toNat n = false

/-- The n bytes at va are ordinary memory to the issuing strand: its translation is off, and no remote timeout waits for
it. -/
structure PlainAt (s : State) (va : Word) (n : Nat) : Prop extends PlainFor s s.myTile 0 va n where
  off : s.me.root = 0
  inTime : s.me.lost = none

/-! ## Page tables (R364 to R369) -/

/-- The table entry at a physical address. -/
def pteAt (s : State) (a : Nat) : Word := BitVec.ofNat 64 (leNat (memGetBytes s.mem a 8))

/-- The address of the entry that va indexes in the level-l table at base (R364). -/
def entryAddr (va : Word) (l base : Nat) : Nat := base + 8 * (va.toNat / 2 ^ (12 + 9 * l) % 512)

/-- The base that bits 51 to 12 of an entry name (R365). -/
def pteBase (e : Word) : Nat := e.toNat / 2 ^ 12 % 2 ^ 40 * 2 ^ 12

/-- The binary logarithm of the bytes of a leaf's page, by its SIZE (R366). -/
def pageLog (e : Word) : Nat :=
  [12, 14, 16, 18, 20, 21, 22, 24, 26, 28, 30, 32, 34, 36, 38, 39].getD (e.toNat / 2 ^ 56 % 16) 0

/-- A valid pointer of a table above level 0: bits 11 to 2, SIZE and the reserved field are zero (R364, R365). -/
def PointerAt (l : Nat) (e : Word) : Prop :=
  e.getLsbD 0 = true ∧ e.getLsbD 1 = false ∧ 0 < l ∧ e.toNat / 2 ^ 2 % 2 ^ 10 = 0 ∧ e.toNat / 2 ^ 52 % 2 ^ 8 = 0

/-- A valid leaf: of the level of its page size and below level 4, the reserved field zero, MT 0 or 1, and its base aligned to the
page (R364, R365, R366). -/
def LeafAt (l : Nat) (e : Word) : Prop :=
  e.getLsbD 0 = true ∧ e.getLsbD 1 = true ∧ (pageLog e - 12) / 9 = l ∧ l < 4 ∧ e.toNat / 2 ^ 52 % 2 ^ 4 = 0 ∧
  e.toNat / 2 ^ 10 % 4 < 2 ∧ pteBase e % 2 ^ pageLog e = 0

/-- The walk of va from the level-l table at base, for tile n and binding b, reads entries of ordinary memory down to the leaf e at
address a. -/
inductive WalksTo (s : State) (n b : Nat) (va : Word) : Nat → Nat → Word → Nat → Prop
  | leaf {l base : Nat} : PlainFor s n b (BitVec.ofNat 64 (entryAddr va l base)) 8 →
      LeafAt l (pteAt s (entryAddr va l base)) →
      WalksTo s n b va l base (pteAt s (entryAddr va l base)) (entryAddr va l base)
  | pointer {l base : Nat} {e : Word} {a : Nat} : PlainFor s n b (BitVec.ofNat 64 (entryAddr va (l + 1) base)) 8 →
      PointerAt (l + 1) (pteAt s (entryAddr va (l + 1) base)) →
      WalksTo s n b va l (pteBase (pteAt s (entryAddr va (l + 1) base))) e a → WalksTo s n b va (l + 1) base e a

/-- The same walk ends at an entry that is not valid, or, with malformed, at a valid one that is malformed (R364 to R366). -/
inductive WalkEnds (s : State) (n b : Nat) (va : Word) (malformed : Bool) : Nat → Nat → Prop
  | here {l base : Nat} : PlainFor s n b (BitVec.ofNat 64 (entryAddr va l base)) 8 →
      (pteAt s (entryAddr va l base)).getLsbD 0 = malformed → ¬PointerAt l (pteAt s (entryAddr va l base)) →
      ¬LeafAt l (pteAt s (entryAddr va l base)) → WalkEnds s n b va malformed l base
  | pointer {l base : Nat} : PlainFor s n b (BitVec.ofNat 64 (entryAddr va (l + 1) base)) 8 →
      PointerAt (l + 1) (pteAt s (entryAddr va (l + 1) base)) →
      WalkEnds s n b va malformed l (pteBase (pteAt s (entryAddr va (l + 1) base))) → WalkEnds s n b va malformed (l + 1) base

/-- A leaf permits an access of a kind at supervisor or user level (R367). -/
def Permits (e : Word) (kind : AccKind) (sup : Bool) : Prop :=
  (match kind with
    | .load => e.getLsbD 2 = true
    | .fetch => e.getLsbD 4 = true
    | .store => e.getLsbD 3 = true ∧ e.getLsbD 9 = false) ∧ (sup = true ∨ e.getLsbD 5 = true)

/-- A buffer entry serves an address under an ASID (R365, R369). -/
def Serves (x : TlbEnt) (asid : BitVec 16) (va : Word) : Prop :=
  (x.glob = true ∨ x.asid = asid) ∧ x.va ≤ va.toNat ∧ va.toNat < x.va + x.size

/-- The entry that the leaf e, read at address a, gives for the page of va under an ASID (R366, R369). -/
def entryFor (asid : BitVec 16) (va e : Word) (a : Nat) : TlbEnt :=
  { asid := asid, glob := e.getLsbD 6, va := va.toNat / 2 ^ pageLog e * 2 ^ pageLog e, size := 2 ^ pageLog e, pa := pteBase e,
    pte := e, at_ := a }

/-- A buffer has taken an entry for va: the entry is in it, no other serves va, every other was there before, and with room for one
more all that did not serve va still are (R369). -/
def Takes (room : Nat) (x : TlbEnt) (va : Word) (old new : List TlbEnt) : Prop :=
  x ∈ new ∧ (∀ y ∈ new, y = x ∨ y ∈ old ∧ ¬Serves y x.asid va) ∧
  (old.length < room → ∀ y ∈ old, ¬Serves y x.asid va → y ∈ new)

/-! ## Records and words -/

/-- The eight doublewords of the 64-byte record at va. -/
def recordAt (s : State) (va : Word) : Vector Word 8 :=
  Vector.ofFn fun i : Fin 8 => BitVec.ofNat 64 (leNat (memGetBytes s.mem (va.toNat + 8 * i.val) 8))

/-- The doubleword at va. -/
def wordAt (s : State) (va : Word) : Word := BitVec.ofNat 64 (leNat (memGetBytes s.mem va.toNat 8))

/-- Of two records that reach a dispatcher in one cycle the first goes before the second: a trigger before a boot launch, both
before the records of strands, and these by the strands' numbers (R355). -/
def Precedes (r q : QRec) : Prop :=
  r.enq = q.enq ∧ (r.origin = 2 ∧ q.origin ≠ 2 ∨ r.origin = 3 ∧ q.origin ≠ 2 ∧ q.origin ≠ 3 ∨
    r.origin ≠ 2 ∧ r.origin ≠ 3 ∧ q.origin ≠ 2 ∧ q.origin ≠ 3 ∧ r.by_ < q.by_)

/-- A queue has taken record r, but for its slot, which nothing in it held, behind all but the records that r precedes (R354, R355). -/
def Joins (r : QRec) (old new : List QRec) : Prop :=
  ∃ slot pre post, (∀ q ∈ old, q.slot ≠ slot) ∧ old = pre ++ post ∧ new = pre ++ { r with slot := slot } :: post ∧
    (∀ q ∈ pre, ¬Precedes r q) ∧ ∀ q, post.head? = some q → Precedes r q

/-- Nothing that the hardware reads or writes for itself has to wait: no directory record, no range reservation, no line that an
engine holds. -/
def NothingHeld (s : State) : Prop := s.dir = [] ∧ (∀ m ∈ s.mdies, m.ranges = []) ∧ ∀ e ∈ s.cmds, e.2.lines = []

/-- The issuing strand has no access outstanding and no write that waits for its trigger: what a release waits for (R181, R209, R355). -/
def Settled (s : State) : Prop := s.me.outst = [] ∧ s.owesTrigger s.cur = false

/-- What R203 asks of an atomic before its access: the scope of a qualified form holds the issuing tile, and a release has
nothing left to wait for. -/
def AtomicReady (s : State) (q : AmoQual) : Prop :=
  (q.ord = .none ∨ (s.me.scopes.getD q.scope.toNat Scope.empty).hasTile s.myTile s.myTile = true) ∧
  (q.ord = .rl ∨ q.ord = .aqrl → Settled s)

/-! ## Vector and accumulator accesses -/

/-- A vector or accumulator access starts at its first element: it is neither resumed after ERET nor woken from a wait. -/
def Fresh (s : State) : Prop := s.me.resume = false ∧ s.me.part = none

/-- The little-endian number that units of n bytes hold, the first unit lowest. -/
def unitsNat (m : List Host.Cell) (n : Nat) : List Word → Nat
  | [] => 0
  | u :: r => leNat (memGetBytes m u.toNat n) + 2 ^ (8 * n) * unitsNat m n r

/-- What is outstanding once elements at the addresses listed, all of them in HBM, have been stored: nothing for no element, else
one record of the store with its time, and of each address whether its home is another die than the tile's (R209, R389). -/
def storesLeft (s : State) (kind : OutstKind) (l : List Word) : List Outst :=
  if l.isEmpty then []
  else [{ kind := kind, since := s.clock, addrs := l.map fun u => (u, homeDie u.toNat != dieOf s.myTile) }]

/-- Nothing differs but strand k, the directory's records of the lines of the addresses listed, and copies given up to make room for
them. -/
structure OnlyStrandAndLines (k : Nat) (l : List Word) (s t : State) : Prop where
  rest : t = { s with strands := t.strands, dir := t.dir }
  others : ∀ j, j ≠ k → t.strand j = s.strand j
  lines : ∀ x, (∀ a ∈ l, lineOf a.toNat ≠ x) → Shrunk (s.dirLine x) (t.dirLine x)
  bytes : ∀ a, memGet t.mem a = memGet s.mem a

/-- The pairs listed, an address and a value of n bytes, are stored in their order, and no byte outside them differs. Besides
that and strand k, only the directory's records of their lines, copies of others given up, triggers sent, and what a write takes from other strands
(a reservation of its line, a sleep on it) may differ. -/
structure WroteAll (k n : Nat) (l : List (Nat × Nat)) (s t : State) : Prop where
  rest : t = { s with strands := t.strands, dir := t.dir, triggers := t.triggers, mem := t.mem }
  others : ∀ j, j ≠ k → t.strand j =
    l.foldl (fun x u => x.meetsWrite (lineOf u.1) (lineOf (u.1 + n - 1)) false) (s.strand j)
  lines : ∀ x, (∀ u ∈ l, lineOf u.1 ≠ x) → Shrunk (s.dirLine x) (t.dirLine x)
  sent : ∃ more, t.triggers = s.triggers ++ more
  stored : t.mem = l.foldl (fun m u => memSetBytes m u.1 (leBytes n u.2)) s.mem
  outside : ∀ b, (∀ u ∈ l, b < u.1 ∨ u.1 + n ≤ b) → memGet t.mem b = memGet s.mem b

/-! ## Vector results -/

/-- Each element of width w of v_d that on lists is as f says, and every other bit of v_d and every other v register are as
they were. An element that lies outside the register is none. -/
structure WritesV (d : Reg) (w : Nat) (on : List Nat) (f : Nat → Nat) (s t : State) : Prop where
  elems : ∀ e ∈ on, w * (e + 1) ≤ 16384 → t.elem d w e = f e % 2 ^ w
  bits : ∀ i, (∀ e ∈ on, ¬(w * e ≤ i ∧ i < w * e + w)) → (t.vreg d).getLsbD i = (s.vreg d).getLsbD i
  regs : ∀ r, r ≠ d → t.vreg r = s.vreg r

/-- Such a write to v_d, busy in VPI, is all that the instruction does to its strand as it retires in sequence. -/
structure SetsV (d : Reg) (w : Nat) (on : List Nat) (f : Nat → Nat) (s t : State) : Prop extends WritesV d w on f s t where
  strand : t.me = { s.me.retired with v := t.me.v, vpi := s.me.vpi ||| (1 <<< d.toNat), pc := s.me.pc + 4 }

/-- Such a write to v_d as elements arrive, with the register busy in VPI once one has and no longer as partly loaded, is all that the
instruction does to its strand as it retires in sequence. -/
structure LoadsV (d : Reg) (w : Nat) (on : List Nat) (f : Nat → Nat) (s t : State) : Prop extends WritesV d w on f s t where
  strand : t.me = { s.me.retired with
    v := t.me.v, pc := s.me.pc + 4, vpi := if on.isEmpty then s.me.vpi else s.me.vpi ||| (1 <<< d.toNat),
    partly := s.me.retired.partly &&& ~~~((1 : BitVec 32) <<< d.toNat) }

/-- Each bit of mask m_d that on lists is as f says, and every other bit and mask are as they were. -/
structure WritesM (d : MReg) (on : List Nat) (f : Nat → Bool) (s t : State) : Prop where
  hit : ∀ e ∈ on, e < 4096 → (t.mask d).getLsbD e = f e
  miss : ∀ e, e ∉ on → (t.mask d).getLsbD e = (s.mask d).getLsbD e
  masks : ∀ m, m ≠ d → t.mask m = s.mask m

/-- Such a write to m_d is all that the instruction does to its strand as it retires in sequence. -/
structure SetsM (d : MReg) (on : List Nat) (f : Nat → Bool) (s t : State) : Prop extends WritesM d on f s t where
  strand : t.me = { s.me.retired with m := t.me.m, pc := s.me.pc + 4 }

/-- The flags of lane L of the issuing strand's tile. -/
def laneFlag (s : State) (L : Nat) : Flags := (s.tile s.myTile).laneFlags.getD L 0

/-- Each lane has gained the flags that fl gives the elements of on that it holds (R93), and but for that and the strand
nothing differs. -/
structure RaisesFlags (w : Nat) (on : List Nat) (fl : Nat → Flags) (s t : State) : Prop where
  flags : ∀ L, L < 32 → laneFlag t L =
    (on.filter fun e => laneOf (s.groupsOf s.cur) w e == L).foldl (fun a e => a ||| fl e) (laneFlag s L)
  only : OnlyStrandAndFlags s.cur s t

end Sys2Proof
end

