-- ==== Sys2Proof/Certificates/Slice0/Obligations.lean ====
section
/-!
DEFINITION. The statements about this model that are to be proved. Each docstring names the rules of spec/ that it rests
on. Where a title speaks of an instruction that completes, the hypotheses are on the state and the operands alone, and
the conclusion is the next state. A statement over a list of pairs holds for each pair: instruction and value.
-/

open Sys2Proof Sys2Proof.Machine

/-! ## Scalar instructions -/

/-- Every register-register integer instruction that cannot trap gives g_d the value of its row, and nothing else of the
machine differs (R118, R122, R125). Every immediate form gives g_d the value of its row, and nothing else of the machine
differs (R120, R121). CLZ, CTZ, POPC and their 32-bit forms count as R124 says: for w of 64 or 32, the result n is at most
w, the n bits that are counted are zero and the next one is set; POPC counts the set bits. BREV, BSWAP, BSWAP32 and INS, bit
by bit (R124, R125). The instructions of R119 and R123 give their value where it fits and the divisor is not 0. A result
outside −2^63 to 2^63 − 1 of ADDO or SUBO, and a zero divisor, take Integer Arithmetic (0x0A) with address field 0; no g
register changes (R119, R123, R238). -/
def Obligations.ScalarIntegerResults : Prop :=
  (∀ (s : State) (d a b : Reg),
     let x := s.readG a
     let y := s.readG b
     let n := (y.extractLsb' 0 6).toNat
     let n5 := (y.extractLsb' 0 5).toNat
     let pos := (y.extractLsb' 0 6).toNat
     let len := min (if y.extractLsb' 8 6 = 0 then 64 else (y.extractLsb' 8 6).toNat) (64 - pos)
     let part := (x.toNat / 2 ^ pos) % 2 ^ len
     ∀ p ∈ ([(.add d a b, x + y), (.sub d a b, x - y), (.and d a b, x &&& y), (.or d a b, x ||| y), (.xor d a b, x ^^^ y),
       (.nor d a b, ~~~(x ||| y)), (.andn d a b, x &&& ~~~y), (.orn d a b, x ||| ~~~y), (.sll d a b, x <<< n),
       (.srl d a b, x >>> n), (.sra d a b, x.sshiftRight n), (.ror d a b, x.rotateRight n),
       (.setlt d a b, if x.toInt < y.toInt then 1 else 0), (.setltn d a b, if x.toNat < y.toNat then 1 else 0),
       (.seteq d a b, if x = y then 1 else 0), (.setne d a b, if x = y then 0 else 1),
       (.min d a b, BitVec.ofInt 64 (min x.toInt y.toInt)), (.max d a b, BitVec.ofInt 64 (max x.toInt y.toInt)),
       (.minu d a b, BitVec.ofNat 64 (min x.toNat y.toNat)), (.maxu d a b, BitVec.ofNat 64 (max x.toNat y.toNat)),
       (.add32 d a b, ((x + y).setWidth 32).signExtend 64), (.sub32 d a b, ((x - y).setWidth 32).signExtend 64),
       (.sll32 d a b, (x.setWidth 32 <<< n5).signExtend 64), (.srl32 d a b, (x.setWidth 32 >>> n5).signExtend 64),
       (.sra32 d a b, ((x.setWidth 32).sshiftRight n5).signExtend 64),
       (.addsc1 d a b, (x <<< 1) + y), (.addsc2 d a b, (x <<< 2) + y), (.addsc3 d a b, (x <<< 3) + y),
       (.mul d a b, x * y), (.mulhs d a b, BitVec.ofInt 64 (x.toInt * y.toInt / 2 ^ 64)),
       (.mulhn d a b, BitVec.ofNat 64 (x.toNat * y.toNat / 2 ^ 64)),
       (.mulhsn d a b, BitVec.ofInt 64 (x.toInt * y.toNat / 2 ^ 64)),
       (.mul32 d a b, (x.setWidth 32 * y.setWidth 32).signExtend 64),
       (.extU d a b, BitVec.ofNat 64 part),
       (.extS d a b, BitVec.ofInt 64 (if part < 2 ^ (len - 1) then part else part - 2 ^ len))] : List (Instr × Word)),
     Goes (exec p.1 s) fun t => SetsG d p.2 s t ∧ OnlyStrand s.cur s t) ∧
  (∀ (s : State) (d a : Reg) (imm : BitVec 16) (n : BitVec 6),
     let x := s.readG a
     let si := imm.signExtend 64
     let zi := imm.setWidth 64
     ∀ p ∈ ([(.addi d a imm, x + si), (.andi d a imm, x &&& zi), (.ori d a imm, x ||| zi), (.xori d a imm, x ^^^ zi),
       (.setlti d a imm, if x.toInt < si.toInt then 1 else 0), (.setltni d a imm, if x.toNat < si.toNat then 1 else 0),
       (.slli d a n, x <<< n.toNat), (.srli d a n, x >>> n.toNat), (.srai d a n, x.sshiftRight n.toNat),
       (.rori d a n, x.rotateRight n.toNat), (.lui d imm, si <<< 16), (.addpc d imm, s.me.pc + (si <<< 16)),
       (.shori d a imm, (x <<< 16) ||| zi)] : List (Instr × Word)),
     Goes (exec p.1 s) fun t => SetsG d p.2 s t ∧ OnlyStrand s.cur s t) ∧
  (∀ (s : State) (d a : Reg), ∀ p ∈ ([(64, .clz d a, .ctz d a, .popc d a), (32, .clz32 d a, .ctz32 d a, .popc32 d a)] :
       List (Nat × Instr × Instr × Instr)),
     let x := s.readG a
     (∃ n : Nat, n ≤ p.1 ∧ (∀ i, p.1 - n ≤ i → i < p.1 → x.getLsbD i = false) ∧
       (n < p.1 → x.getLsbD (p.1 - 1 - n) = true) ∧
       Goes (exec p.2.1 s) fun t => SetsG d (BitVec.ofNat 64 n) s t ∧ OnlyStrand s.cur s t) ∧
     (∃ n : Nat, n ≤ p.1 ∧ (∀ i, i < n → x.getLsbD i = false) ∧ (n < p.1 → x.getLsbD n = true) ∧
       Goes (exec p.2.2.1 s) fun t => SetsG d (BitVec.ofNat 64 n) s t ∧ OnlyStrand s.cur s t) ∧
     Goes (exec p.2.2.2 s) fun t =>
       SetsG d (BitVec.ofNat 64 ((List.range p.1).filter fun i => x.getLsbD i).length) s t ∧ OnlyStrand s.cur s t) ∧
  (∀ (s : State) (d a b : Reg),
     let x := s.readG a
     let y := s.readG b
     let z := s.readG d
     let pos := (y.extractLsb' 0 6).toNat
     let len := min (if y.extractLsb' 8 6 = 0 then 64 else (y.extractLsb' 8 6).toNat) (64 - pos)
     ∀ p ∈ ([(.brev d a, fun i => x.getLsbD (63 - i)),
         (.bswap d a, fun i => x.getLsbD (8 * (7 - i / 8) + i % 8)),
         (.bswap32 d a, fun i => x.getLsbD (if i < 32 then 8 * (3 - i / 8) + i % 8 else 7)),
         (.ins d a b, fun i => if pos ≤ i ∧ i < pos + len then x.getLsbD (i - pos) else z.getLsbD i)] :
         List (Instr × (Nat → Bool))),
       ∃ v : Word, (∀ i, i < 64 → v.getLsbD i = p.2 i) ∧
         Goes (exec p.1 s) fun t => SetsG d v s t ∧ OnlyStrand s.cur s t) ∧
  (∀ (s : State) (d a b : Reg),
     let x := s.readG a
     let y := s.readG b
     let x' : BitVec 32 := x.setWidth 32
     let y' : BitVec 32 := y.setWidth 32
     ∀ p ∈ ([(.addo d a b, -(2 ^ 63) ≤ x.toInt + y.toInt ∧ x.toInt + y.toInt < 2 ^ 63, x + y),
       (.subo d a b, -(2 ^ 63) ≤ x.toInt - y.toInt ∧ x.toInt - y.toInt < 2 ^ 63, x - y),
       (.divs d a b, y ≠ 0, BitVec.ofInt 64 (x.toInt.tdiv y.toInt)), (.divn d a b, y ≠ 0, x / y),
       (.rems d a b, y ≠ 0, BitVec.ofInt 64 (x.toInt.tmod y.toInt)), (.remn d a b, y ≠ 0, x % y),
       (.divs32 d a b, y' ≠ 0, (BitVec.ofInt 32 (x'.toInt.tdiv y'.toInt)).signExtend 64),
       (.divn32 d a b, y' ≠ 0, (x' / y').signExtend 64),
       (.rems32 d a b, y' ≠ 0, (BitVec.ofInt 32 (x'.toInt.tmod y'.toInt)).signExtend 64),
       (.remn32 d a b, y' ≠ 0, (x' % y').signExtend 64)] : List (Instr × Prop × Word)),
     p.2.1 → Goes (exec p.1 s) fun t => SetsG d p.2.2 s t ∧ OnlyStrand s.cur s t) ∧
  (∀ (s : State) (d a b : Reg), s.me.ta = false →
     let x := s.readG a
     let y := s.readG b
     ∀ p ∈ ([(.addo d a b, x.toInt + y.toInt < -(2 ^ 63) ∨ 2 ^ 63 ≤ x.toInt + y.toInt),
       (.subo d a b, x.toInt - y.toInt < -(2 ^ 63) ∨ 2 ^ 63 ≤ x.toInt - y.toInt),
       (.divs d a b, y = 0), (.divn d a b, y = 0), (.rems d a b, y = 0), (.remn d a b, y = 0),
       (.divs32 d a b, y.setWidth 32 = 0#32), (.divn32 d a b, y.setWidth 32 = 0#32),
       (.rems32 d a b, y.setWidth 32 = 0#32), (.remn32 d a b, y.setWidth 32 = 0#32)] : List (Instr × Prop)),
     p.2 → Goes (exec p.1 s) fun t => TakesTrap (Trap.sync 0x0A 0) s t ∧ t.me.g = s.me.g ∧ OnlyStrand s.cur s t)

/-- A conditional branch goes to PC + 4 × SignExtend(off, 16) when its condition holds and to PC + 4 otherwise; J and JAL
always go, JAL with PC + 4 in g31; no other register changes (R130, R131). JALR goes to g_a + simm with PC + 4 in g_d when
that target is a multiple of 4, and otherwise takes Misaligned Access with the target in TREC and g_d unchanged (R132). -/
def Obligations.BranchesAndJumps : Prop :=
  (∀ (s : State) (a b : Reg) (off : BitVec 16) (far : BitVec 26),
     let x := s.readG a
     let y := s.readG b
     let pc := s.me.pc
     (∀ p ∈ ([(.beq a b off, decide (x = y)), (.bne a b off, decide (x ≠ y)), (.blt a b off, decide (x.toInt < y.toInt)),
         (.bge a b off, decide (y.toInt ≤ x.toInt)), (.bltu a b off, decide (x.toNat < y.toNat)),
         (.bgeu a b off, decide (y.toNat ≤ x.toNat))] : List (Instr × Bool)),
       Goes (exec p.1 s) fun t =>
         RetiresTo (if p.2 then pc + 4 * off.signExtend 64 else pc + 4) s t ∧ OnlyStrand s.cur s t) ∧
     (Goes (exec (.j far) s) fun t => RetiresTo (pc + 4 * far.signExtend 64) s t ∧ OnlyStrand s.cur s t) ∧
     Goes (exec (.jal far) s) fun t =>
       t.me = { s.me.retired with g := t.me.g, pc := pc + 4 * far.signExtend 64 } ∧ t.readG 31 = pc + 4 ∧
         (∀ r, r ≠ 31 → t.readG r = s.readG r) ∧ OnlyStrand s.cur s t) ∧
  (∀ (s : State) (d a : Reg) (imm : BitVec 16),
     let target := s.readG a + imm.signExtend 64
     (target.toNat % 4 = 0 → Goes (exec (.jalr d a imm) s) fun t =>
       t.me = { s.me.retired with g := t.me.g, pc := target } ∧ t.readG d = (if d = 0 then 0 else s.me.pc + 4) ∧
         (∀ r, r ≠ d → t.readG r = s.readG r) ∧ OnlyStrand s.cur s t) ∧
     (target.toNat % 4 ≠ 0 → s.me.ta = false → Goes (exec (.jalr d a imm) s) fun t =>
       TakesTrap (Trap.sync 0x03 target) s t ∧ t.me.g = s.me.g ∧ OnlyStrand s.cur s t))

/-- Every scalar floating-point instruction that gives a g register writes the code of its row, zero-extended, ORs the flags
of that operation into STATUS.FFLAGS, and changes nothing else; no operand traps (R92, R126 to R129). The operations on
codes are those of Machine/Float.lean. -/
def Obligations.ScalarFloatResults : Prop :=
  ∀ (s : State) (p : FPrec) (rtz : Bool) (d a b : Reg),
    let f := match p with | .f64 => fp64 | .f32 => fp32
    let m := rmode s.me.rm
    let code (r : Reg) : Nat := (s.readG r).toNat % 2 ^ f.bits
    let x := code a
    let y := code b
    let c := f.decode (code d)
    let toInt (sg : Bool) : Nat × Flags :=
      let r := satInt sg 64 (if rtz then .rtz else m) (f.decode x)
      (r.code, r.flags)
    ∀ q ∈ ([(.fadd p d a b, f.addF m x y), (.fsub p d a b, f.subF m x y), (.fmul p d a b, f.mulF m x y),
      (.fdiv p d a b, f.divF m x y), (.fsqrt p d a, f.sqrtF m x), (.fmin p d a b, (f.minF x y, 0)),
      (.fmax p d a b, (f.maxF x y, 0)), (.fmac p d a b, f.fmaV m (f.decode x) (f.decode y) c),
      (.fmsc p d a b, f.fmaV m (f.decode x) (f.decode y) c.neg),
      (.fcmpeq p d a b, f.compare false FVal.eq x y), (.fcmplt p d a b, f.compare true FVal.lt x y),
      (.fcmple p d a b, f.compare true (fun u v => !v.lt u) x y), (.fkind p d a, (f.kind x, 0)),
      (.fcvti p rtz d a, toInt true), (.fcvtiu p rtz d a, toInt false),
      (.fcvtf p d a, f.round m (.ofInt (s.readG a).toInt)), (.fcvtfu p d a, f.round m (.ofInt (s.readG a).toNat)),
      (.fcvtp p d a, match p with
        | .f64 => ((fp64.round .rne (fp32.decode ((s.readG a).toNat % 2 ^ 32))).1, 0)
        | .f32 => let r := fp32.sat m (fp64.decode (s.readG a).toNat)
          (r.code, r.flags)),
      (.fcopys p d a b, (f.copySign false x y, 0)), (.fcopysn p d a b, (f.copySign true x y, 0))] :
        List (Instr × Nat × Flags)),
    Goes (exec q.1 s) fun t =>
      t.readG d = (if d = 0 then 0 else BitVec.ofNat 64 q.2.1) ∧ (∀ r, r ≠ d → t.readG r = s.readG r) ∧
      t.me = { s.me.retired with g := t.me.g, pc := s.me.pc + 4, fflags := s.me.fflags ||| q.2.2 } ∧
      OnlyStrand s.cur s t

/-! ## Scalar memory and atomics -/

/-- A scalar load of ordinary memory gives g_d the little-endian value at its address, extended as its row says; only g_d
and the directory's record of the line differ (R134, R135). A scalar store to ordinary memory writes the low bytes of g_d at
its address, lowest first, and no other byte; no register changes (R134, R135). -/
def Obligations.ScalarLoadsAndStores : Prop :=
  (∀ (s : State) (d a b : Reg) (disp : BitVec 16),
     let far := s.readG a + disp.signExtend 64
     let sum := s.readG a + s.readG b
     ∀ p ∈ ([(.ld d a disp, far, 8, fun x => BitVec.ofNat 64 x),
       (.lw d a disp, far, 4, fun x => (BitVec.ofNat 32 x).signExtend 64),
       (.lwu d a disp, far, 4, fun x => BitVec.ofNat 64 x), (.lb d a b, sum, 1, fun x => (BitVec.ofNat 8 x).signExtend 64),
       (.lbu d a b, sum, 1, fun x => BitVec.ofNat 64 x), (.lh d a b, sum, 2, fun x => (BitVec.ofNat 16 x).signExtend 64),
       (.lhu d a b, sum, 2, fun x => BitVec.ofNat 64 x)] : List (Instr × Word × Nat × (Nat → Word))),
     PlainAt s p.2.1 p.2.2.1 → Goes (exec p.1 s) fun t =>
       SetsG d (p.2.2.2 (leNat (memGetBytes s.mem p.2.1.toNat p.2.2.1))) s t ∧ OnlyStrandAndLine s.cur p.2.1.toNat s t) ∧
  (∀ (s : State) (d a b : Reg) (disp : BitVec 16), s.me.run = .running →
     let far := s.readG a + disp.signExtend 64
     let sum := s.readG a + s.readG b
     ∀ p ∈ ([(.sd d a disp, far, 8), (.sw d a disp, far, 4), (.sb d a b, sum, 1), (.sh d a b, sum, 2)] :
         List (Instr × Word × Nat)),
     PlainAt s p.2.1 p.2.2 → Goes (exec p.1 s) fun t =>
       RetiresTo (s.me.pc + 4) s t ∧ Wrote s.cur p.2.1.toNat p.2.2 ((s.readG d).toNat % 256 ^ p.2.2) s t)

/-- A scalar load, store or atomic at an address that is not a multiple of its size takes Misaligned Access (0x03) with the
address, whatever it would reach, and changes nothing else (R114, R136, R203; in the control space the model's reading, log 32). With translation off, a scalar access beyond the 52-bit
physical addresses takes the page fault of its kind with the address (R134, R136, R362, R363). -/
def Obligations.ScalarAccessTraps : Prop :=
  (∀ (s : State) (d a b : Reg) (disp : BitVec 16) (q : AmoQual), s.me.ta = false →
     let far := s.readG a + disp.signExtend 64
     let sum := s.readG a + s.readG b
     let at_ := s.readG a
     let n := if q.dbl then 8 else 4
     ∀ p ∈ ([(.ld d a disp, far, 8), (.lw d a disp, far, 4), (.lwu d a disp, far, 4), (.sd d a disp, far, 8),
       (.sw d a disp, far, 4), (.lh d a b, sum, 2), (.lhu d a b, sum, 2), (.sh d a b, sum, 2), (.lr q d a, at_, n),
       (.sc q d a b, at_, n), (.amoswap q d a b, at_, n), (.amoadd q d a b, at_, n), (.amoand q d a b, at_, n),
       (.amoor q d a b, at_, n), (.amoxor q d a b, at_, n), (.amomin q d a b, at_, n), (.amomax q d a b, at_, n),
       (.amominu q d a b, at_, n), (.amomaxu q d a b, at_, n), (.amocas q d a b, at_, n)] : List (Instr × Word × Nat)),
     p.2.1.toNat % p.2.2 ≠ 0 →
       Goes (exec p.1 s) fun t => TakesTrap (Trap.sync 0x03 p.2.1) s t ∧ OnlyStrand s.cur s t) ∧
  (∀ (s : State) (d a b : Reg) (disp : BitVec 16), s.me.ta = false → s.me.root = 0 →
     let far := s.readG a + disp.signExtend 64
     let sum := s.readG a + s.readG b
     ∀ p ∈ ([(.ld d a disp, far, 8, 0x04), (.lw d a disp, far, 4, 0x04), (.lwu d a disp, far, 4, 0x04),
       (.lb d a b, sum, 1, 0x04), (.lbu d a b, sum, 1, 0x04), (.lh d a b, sum, 2, 0x04), (.lhu d a b, sum, 2, 0x04),
       (.sd d a disp, far, 8, 0x05), (.sw d a disp, far, 4, 0x05), (.sb d a b, sum, 1, 0x05), (.sh d a b, sum, 2, 0x05)] :
         List (Instr × Word × Nat × BitVec 8)),
     p.2.1.toNat % p.2.2.1 = 0 → 2 ^ 52 ≤ p.2.1.toNat →
       Goes (exec p.1 s) fun t => TakesTrap (Trap.sync p.2.2.2 p.2.1) s t ∧ OnlyStrand s.cur s t)

/-- PRF retires in sequence, whatever its address: it changes no g, v or mask register and enters no trap; with
translation off no byte of memory and nothing of other strands, tiles and compute dies differs; for a line homed here of which no half
is held outside nothing differs but its strand and the directory's record of the line, with copies given up to make room
(R138, R391). CLEAN and FLUSH of an address retire, CLEAN with every copy kept and nothing of an ordinary line modified,
FLUSH with nothing of such a line modified and its copies in the tile's L1D and the die's L2 gone; FLUSH.L1 and FLUSH.L2 at supervisor level drop
every copy of the tile's L1D and of the die's L2. Of these none changes a byte of memory (R243, R370). -/
def Obligations.PrefetchAndCacheMaintenance : Prop :=
  (∀ (s : State) (a : Reg) (disp : BitVec 16), ∀ i ∈ [Instr.prfRd a disp, Instr.prfWr a disp],
     let far := (s.readG a + disp.signExtend 64).toNat
     Goes (exec i s) fun t =>
       t.me.pc = s.me.pc + 4 ∧ t.me.g = s.me.g ∧ t.me.v = s.me.v ∧ t.me.m = s.me.m ∧ t.me.ta = s.me.ta ∧
       (s.me.root = 0 →
         RetiresTo (s.me.pc + 4) s t ∧ (∀ k, k ≠ s.cur → t.strand k = s.strand k) ∧
         t = { s with strands := t.strands, dir := t.dir, snoops := t.snoops, wanted := t.wanted, mdies := t.mdies }) ∧
       (s.me.root = 0 → homedHere far = true → s.heldHalves far = [] → OnlyStrandAndLine s.cur far s t)) ∧
  (∀ (s : State) (a : Reg),
     let va := s.readG a
     let l1 (c : Cache) : Prop := c = .l1d s.myTile
     let l2 (c : Cache) : Prop := c = .l2 (dieOf s.myTile)
     let dropped (t : State) (l : Nat) (gone : Cache → Prop) : Prop :=
       ∀ c, c ∈ (t.dirLine l).copies ↔ c ∈ (s.dirLine l).copies ∧ ¬ gone c
     let rest (t : State) : Prop := RetiresTo (s.me.pc + 4) s t ∧ (∀ j, j ≠ s.cur → t.strand j = s.strand j) ∧
       t = { s with strands := t.strands, dir := t.dir } ∧ ∀ l, (t.dirLine l).lo = (s.dirLine l).lo ∧ (t.dirLine l).hi = (s.dirLine l).hi
     (s.me.root = 0 → Goes (exec (.clean a) s) fun t => (∀ l, dropped t l fun _ => False) ∧ rest t) ∧
     (PlainAt s va 1 → Goes (exec (.clean a) s) fun t =>
       (t.dirLine (lineOf va.toNat)).dlo = false ∧ (t.dirLine (lineOf va.toNat)).dhi = false ∧
       (∀ l, l ≠ lineOf va.toNat → t.dirLine l = s.dirLine l) ∧ rest t) ∧
     (PlainAt s va 1 → Goes (exec (.flush a) s) fun t =>
       dropped t (lineOf va.toNat) (fun c => l1 c ∨ l2 c) ∧
       (t.dirLine (lineOf va.toNat)).dlo = false ∧ (t.dirLine (lineOf va.toNat)).dhi = false ∧ (∀ l, l ≠ lineOf va.toNat → t.dirLine l = s.dirLine l) ∧ rest t) ∧
     (s.me.pl = true →
       (Goes (exec .flushL1 s) fun t => (∀ l, dropped t l l1) ∧ rest t) ∧
       Goes (exec .flushL2 s) fun t => (∀ l, dropped t l l2) ∧ rest t))

/-- Each AMO on ordinary memory writes the value of its row at the form's width and gives g_d the old value, sign-extended
in the W forms; AMOCAS writes no byte when the word is not g_d (R203, R205). LR gives g_d the word and sets the reservation
to its address and size; SC with that reservation, less than 4,096 cycles old, writes the word and gives 0; any other SC
writes nothing and gives 1; SC clears the reservation (R206, R207). That the physical address must be that of the LR too, and that
the reservation is lost at the 4,096th cycle, is the model's reading (log 46). -/
def Obligations.Atomics : Prop :=
  (∀ (s : State) (q : AmoQual) (d a b : Reg), s.me.run = .running → AtomicReady s q →
     let va := s.readG a
     let n := if q.dbl then 8 else 4
     let w := 8 * n
     let x := leNat (memGetBytes s.mem va.toNat n)
     let y := (s.readG b).toNat % 2 ^ w
     let sgn (v : Nat) : Int := (BitVec.ofNat w v).toInt
     let old : Word := if q.dbl then BitVec.ofNat 64 x else (BitVec.ofNat 32 x).signExtend 64
     PlainAt s va n →
     (∀ p ∈ ([(.amoswap q d a b, y), (.amoadd q d a b, (x + y) % 2 ^ w), (.amoand q d a b, x &&& y),
         (.amoor q d a b, x ||| y), (.amoxor q d a b, x ^^^ y), (.amomin q d a b, if sgn y < sgn x then y else x),
         (.amomax q d a b, if sgn x < sgn y then y else x), (.amominu q d a b, min x y), (.amomaxu q d a b, max x y)] :
           List (Instr × Nat)),
       Goes (exec p.1 s) fun t => SetsG d old s t ∧ Wrote s.cur va.toNat n p.2 s t) ∧
     Goes (exec (.amocas q d a b) s) fun t => SetsG d old s t ∧
       if x = (s.readG d).toNat % 2 ^ w then Wrote s.cur va.toNat n y s t else OnlyStrandAndLine s.cur va.toNat s t) ∧
  (∀ (s : State) (q : AmoQual) (d a b : Reg), s.me.run = .running → AtomicReady s q →
     let va := s.readG a
     let n := if q.dbl then 8 else 4
     let x := leNat (memGetBytes s.mem va.toNat n)
     let now := (s.die (dieOfStrand s.cur)).cycles / 1000
     let val : Word := if q.dbl then BitVec.ofNat 64 x else (BitVec.ofNat 32 x).signExtend 64
     let fresh : Prop := ∃ r, s.me.resv = some r ∧ r.addr = va ∧ r.dbl = q.dbl ∧ r.pa = va.toNat ∧ now < r.since + 4096
     PlainAt s va n →
     (Goes (exec (.lr q d a) s) fun t =>
       t.readG d = (if d = 0 then 0 else val) ∧ (∀ r, r ≠ d → t.readG r = s.readG r) ∧
       t.me = { s.me.retired with g := t.me.g, pc := s.me.pc + 4,
                                  resv := some { addr := va, dbl := q.dbl, pa := va.toNat, since := now } } ∧
       OnlyStrandAndLine s.cur va.toNat s t) ∧
     (fresh → Goes (exec (.sc q d a b) s) fun t =>
       t.readG d = 0 ∧ (∀ r, r ≠ d → t.readG r = s.readG r) ∧
       t.me = { s.me.retired with g := t.me.g, pc := s.me.pc + 4, resv := none } ∧
       Wrote s.cur va.toNat n ((s.readG b).toNat % 2 ^ (8 * n)) s t) ∧
     (¬ fresh → Goes (exec (.sc q d a b) s) fun t =>
       t.readG d = (if d = 0 then 0 else 1) ∧ (∀ r, r ≠ d → t.readG r = s.readG r) ∧
       t.me = { s.me.retired with g := t.me.g, pc := s.me.pc + 4, resv := none } ∧ OnlyStrandAndLine s.cur va.toNat s t))

/-! ## Vector instructions -/

/-- The integer instructions that write a vector register element by element complete when EW is their width: each active
element below VL gets the value of its row modulo 2^w, nothing else of v_d changes, no flag is raised and nothing else of
the machine differs (R139, R140, R147, R149, R150, R151, R152, R156, R161). -/
def Obligations.VectorIntegerResults : Prop :=
  ∀ (s : State) (ty : IntTy) (d a b : Reg) (mk : MReg) (k : VMask), s.ewBits = intW ty →
    let w := intW ty
    let read (v : Nat) : Int := if intS ty then (BitVec.ofNat w v).toInt else (v : Int)
    let x (e : Nat) : Int := read (s.elem a w e)
    let y (e : Nat) : Int := read (s.elem b w e)
    let z (e : Nat) : Int := read (s.elem d w e)
    let g : Nat := (s.readG b).toNat
    let c : Int := read (g % 2 ^ w)
    let at_ (i : Nat) : Int := if i < s.vlen then x i else 0
    let on := s.actives k
    ∀ p ∈ ([(.vsplat ty d a k, fun _ => ((s.readG a).toNat : Int)), (.vid ty d k, fun e => (e : Int)), (.vmv ty d a k, x),
      (.vmprefix ty d mk k, fun e => (((on.filter fun i => i < e).filter fun i => (s.mask mk).getLsbD i).length : Int)),
      (.vadd ty d a b k, fun e => x e + y e), (.vsub ty d a b k, fun e => x e - y e), (.vmul ty d a b k, fun e => x e * y e),
      (.vmulh ty d a b k, fun e => x e * y e / 2 ^ w), (.vdiv ty d a b k, fun e => if y e = 0 then -1 else (x e).tdiv (y e)),
      (.vrem ty d a b k, fun e => if y e = 0 then x e else (x e).tmod (y e)), (.vmin ty d a b k, fun e => min (x e) (y e)),
      (.vmax ty d a b k, fun e => max (x e) (y e)), (.vand ty d a b k, fun e => ((s.elem a w e &&& s.elem b w e : Nat) : Int)),
      (.vor ty d a b k, fun e => ((s.elem a w e ||| s.elem b w e : Nat) : Int)),
      (.vxor ty d a b k, fun e => ((s.elem a w e ^^^ s.elem b w e : Nat) : Int)),
      (.vsll ty d a b k, fun e => ((s.elem a w e <<< (s.elem b w e % w) : Nat) : Int)),
      (.vsr ty d a b k, fun e => x e / 2 ^ (s.elem b w e % w)), (.vmac ty d a b k, fun e => z e + x e * y e),
      (.vshup ty d a b k, fun e => if g ≤ e then x (e - g) else z e), (.vshdn ty d a b k, fun e => at_ (e + g)),
      (.vperm ty d a b k, fun e => at_ (s.elem b w e)), (.vbcast ty d a b k, fun _ => at_ g),
      (.vaddVs ty d a b k, fun e => x e + c), (.vsubVs ty d a b k, fun e => x e - c), (.vrsubVs ty d a b k, fun e => c - x e),
      (.vmulVs ty d a b k, fun e => x e * c), (.vminVs ty d a b k, fun e => min (x e) c),
      (.vmaxVs ty d a b k, fun e => max (x e) c), (.vandVs ty d a b k, fun e => ((s.elem a w e &&& g : Nat) : Int)),
      (.vsllVs ty d a b k, fun e => ((s.elem a w e <<< (g % w) : Nat) : Int))] : List (Instr × (Nat → Int))),
    Goes (exec p.1 s) fun t => SetsV d w on (fun e => (p.2 e % 2 ^ w).toNat) s t ∧ OnlyStrand s.cur s t

/-- VMERGE takes each element below VL from v_a or v_b by its mask bit; VRESHAPE with 1 ≤ g_b ≤ VL transposes rows of g_b
elements and leaves the elements past the last whole row in order; VPACKM packs the elements of v_a under the mask to the
front of v_d (R149, R161, R162). Mask logic replaces the bits below VL; VFFS and VPOPC give the first and the number of the
active set bits; VMVG and VMVV move one element below VLMAX, VMVG giving 0 and VMVV writing nothing at or above it; the
source of VMVG is no longer busy in VPI (R143, R149, R150). -/
def Obligations.VectorPermutesAndMasks : Prop :=
  (∀ (s : State) (ty : IntTy) (d a b : Reg) (mk : MReg), s.ewBits = intW ty →
     let w := intW ty
     let n := (s.readG b).toNat
     let all := List.range s.vlen
     let packed := s.actives { on := true, num := mk }
     (Goes (exec (.vmerge ty d a b mk) s) fun t =>
       SetsV d w all (fun e => if (s.mask mk).getLsbD e then s.elem a w e else s.elem b w e) s t ∧ OnlyStrand s.cur s t) ∧
     (1 ≤ n → n ≤ s.vlen → Goes (exec (.vreshape ty d a b) s) fun t =>
       let r := s.vlen / n
       SetsV d w all (fun e => s.elem a w (if e < r * n then (e % r) * n + e / r else e)) s t ∧ OnlyStrand s.cur s t) ∧
     Goes (exec (.vpackm ty d a mk) s) fun t =>
       SetsV d w (List.range packed.length) (fun e => s.elem a w (packed.getD e 0)) s t ∧ OnlyStrand s.cur s t) ∧
  (∀ (s : State) (d m n : MReg) (g a b : Reg) (k : VMask),
     let all := List.range s.vlen
     let p (e : Nat) : Bool := (s.mask m).getLsbD e
     let q (e : Nat) : Bool := (s.mask n).getLsbD e
     let hits := (s.actives k).filter p
     (∀ x ∈ ([(.mand d m n, fun e => p e && q e), (.mor d m n, fun e => p e || q e), (.mxor d m n, fun e => p e ^^ q e),
         (.mandn d m n, fun e => p e && !q e), (.morn d m n, fun e => p e || !q e), (.mnot d m, fun e => !p e),
         (.mset d, fun _ => true), (.mclr d, fun _ => false)] : List (Instr × (Nat → Bool))),
       Goes (exec x.1 s) fun t => SetsM d all x.2 s t ∧ OnlyStrand s.cur s t) ∧
     (Goes (exec (.vffs g m k) s) fun t =>
       SetsG g (match hits with | e :: _ => BitVec.ofNat 64 e | [] => 0xFFFF_FFFF_FFFF_FFFF) s t ∧ OnlyStrand s.cur s t) ∧
     (Goes (exec (.vpopc g m k) s) fun t => SetsG g (BitVec.ofNat 64 hits.length) s t ∧ OnlyStrand s.cur s t) ∧
     ∀ ty : IntTy, s.ewBits = intW ty →
       let w := intW ty
       let i := (s.readG b).toNat
       let max := s.held * 2048 / w
       (Goes (exec (.vmvg ty g a b) s) fun t =>
         t.readG g = (if g = 0 ∨ max ≤ i then 0 else if intS ty then (BitVec.ofNat w (s.elem a w i)).signExtend 64
           else BitVec.ofNat 64 (s.elem a w i)) ∧ (∀ r, r ≠ g → t.readG r = s.readG r) ∧
         t.me = { s.me.retired with g := t.me.g, pc := s.me.pc + 4, vpi := s.me.vpi &&& ~~~((1 : BitVec 32) <<< a.toNat) } ∧
         OnlyStrand s.cur s t) ∧
       (i < max → Goes (exec (.vmvv ty g a b) s) fun t =>
         SetsV g w [i] (fun _ => (s.readG a).toNat) s t ∧ OnlyStrand s.cur s t) ∧
       (max ≤ i → Goes (exec (.vmvv ty g a b) s) fun t => RetiresTo (s.me.pc + 4) s t ∧ OnlyStrand s.cur s t))

/-- The saturating and the floating-point instructions that write a vector register element by element complete when EW is
their width: each active element gets its value, and the lane that holds it its flags (R92, R93, R140, R151, R154, R156). -/
def Obligations.VectorFlaggedResults : Prop :=
  ∀ (s : State) (d a b : Reg) (k : VMask),
    let on := s.actives k
    let m := rmode s.me.rm
    (∀ ty : IntTy, s.ewBits = intW ty →
      let w := intW ty
      let lo : Int := if intS ty then -(2 ^ (w - 1)) else 0
      let hi : Int := if intS ty then 2 ^ (w - 1) - 1 else 2 ^ w - 1
      let read (v : Nat) : Int := if intS ty then (BitVec.ofNat w v).toInt else (v : Int)
      let clip (v : Int) : Int := max lo (min hi v)
      ∀ p ∈ ([(.vadds ty d a b k, fun e => read (s.elem a w e) + read (s.elem b w e)),
          (.vsubs ty d a b k, fun e => read (s.elem a w e) - read (s.elem b w e))] : List (Instr × (Nat → Int))),
        Goes (exec p.1 s) fun t => SetsV d w on (fun e => (clip (p.2 e) % 2 ^ w).toNat) s t ∧
          RaisesFlags w on (fun e => if clip (p.2 e) = p.2 e then 0 else 0x20) s t) ∧
    ∀ ty : FTy, s.ewBits = (fmtOf ty).bits →
      let f := fmtOf ty
      let w := f.bits
      let x (e : Nat) : Nat := s.elem a w e
      let y (e : Nat) : Nat := s.elem b w e
      let z (e : Nat) : FVal := f.decode (s.elem d w e)
      let c : Nat := (s.readG b).toNat % 2 ^ w
      ∀ p ∈ ([(.vfadd ty d a b k, fun e => f.addF m (x e) (y e)), (.vfsub ty d a b k, fun e => f.subF m (x e) (y e)),
          (.vfmul ty d a b k, fun e => f.mulF m (x e) (y e)), (.vfdiv ty d a b k, fun e => f.divF m (x e) (y e)),
          (.vfsqrt ty d a k, fun e => f.sqrtF m (x e)), (.vfmin ty d a b k, fun e => (f.minF (x e) (y e), 0)),
          (.vfmax ty d a b k, fun e => (f.maxF (x e) (y e), 0)),
          (.vfmac ty d a b k, fun e => f.fmaV m (f.decode (x e)) (f.decode (y e)) (z e)),
          (.vfmsc ty d a b k, fun e => f.fmaV m (f.decode (x e)).neg (f.decode (y e)) (z e)),
          (.vfcopys ty d a b k, fun e => (f.copySign false (x e) (y e), 0)),
          (.vfcopysn ty d a b k, fun e => (f.copySign true (x e) (y e), 0)), (.vfkind ty d a k, fun e => (f.kind (x e), 0)),
          (.vfaddVs ty d a b k, fun e => f.addF m (x e) c), (.vfsubVs ty d a b k, fun e => f.subF m (x e) c),
          (.vfrsubVs ty d a b k, fun e => f.subF m c (x e)), (.vfmulVs ty d a b k, fun e => f.mulF m (x e) c),
          (.vfdivVs ty d a b k, fun e => f.divF m (x e) c), (.vfrdivVs ty d a b k, fun e => f.divF m c (x e)),
          (.vfmacVs ty d a b k, fun e => f.fmaV m (f.decode (x e)) (f.decode c) (z e)),
          (.vfmaxVs ty d a b k, fun e => (f.maxF (x e) c, 0))] : List (Instr × (Nat → Nat × Flags))),
        Goes (exec p.1 s) fun t =>
          SetsV d w on (fun e => (p.2 e).1) s t ∧ RaisesFlags w on (fun e => (p.2 e).2) s t

/-- The widening and dot instructions complete when EW is the width of their destination: each active element gets the exact
sum or product of its wider row, rounded once where it is floating point, and its lane the flags (R90, R157). -/
def Obligations.VectorWideningResults : Prop :=
  ∀ (s : State) (d a b : Reg) (k : VMask),
    let on := s.actives k
    let m := rmode s.me.rm
    (∀ ty : WIntTy, s.ewBits = 2 * intW (wintTy ty) →
      let w := intW (wintTy ty)
      let read (n v : Nat) : Int := if intS (wintTy ty) then (BitVec.ofNat n v).toInt else (v : Int)
      let x (e : Nat) : Int := read w (s.elem a w e)
      let y (e : Nat) : Int := read w (s.elem b w e)
      ∀ p ∈ ([(.vwadd ty d a b k, fun e => x e + y e), (.vwsub ty d a b k, fun e => x e - y e),
          (.vwmul ty d a b k, fun e => x e * y e),
          (.vwmac ty d a b k, fun e => read (2 * w) (s.elem d (2 * w) e) + x e * y e)] : List (Instr × (Nat → Int))),
        Goes (exec p.1 s) fun t =>
          SetsV d (2 * w) on (fun e => (p.2 e % 2 ^ (2 * w)).toNat) s t ∧ OnlyStrand s.cur s t) ∧
    (∀ ty : FWTy, s.ewBits = (fwFmts ty).2.bits →
      let f := (fwFmts ty).1
      let q := (fwFmts ty).2
      let x (e : Nat) : FVal := f.decode (s.elem a f.bits e)
      let y (e : Nat) : FVal := f.decode (s.elem b f.bits e)
      ∀ p ∈ ([(.vfwadd ty d a b k, fun e => q.roundNv m ((x e).add m (y e))),
          (.vfwsub ty d a b k, fun e => q.roundNv m ((x e).add m (y e).neg)),
          (.vfwmul ty d a b k, fun e => q.roundNv m ((x e).mul (y e))),
          (.vfwmac ty d a b k, fun e => q.fmaV m (x e) (y e) (q.decode (s.elem d q.bits e)))] :
            List (Instr × (Nat → Nat × Flags))),
        Goes (exec p.1 s) fun t =>
          SetsV d q.bits on (fun e => (p.2 e).1) s t ∧ RaisesFlags q.bits on (fun e => (p.2 e).2) s t) ∧
    (s.ewBits = 32 →
      (∀ ty : ByteTy,
        let read (v : Nat) : Int := match ty with | .s8 => (BitVec.ofNat 8 v).toInt | .n8 => (v : Int)
        let term (e i : Nat) : Int := read (s.elem a 8 (4 * e + i)) * read (s.elem b 8 (4 * e + i))
        Goes (exec (.vdot ty d a b k) s) fun t =>
          SetsV d 32 on (fun e => (((s.elem d 32 e : Int) + (term e 0 + term e 1 + term e 2 + term e 3)) % 2 ^ 32).toNat) s t ∧
          OnlyStrand s.cur s t) ∧
      ∀ ty : DotTy,
        let f := dotFmt ty
        let n := 32 / f.bits
        let r (e : Nat) : Nat × Flags := fp32.dot m (fp32.decode (s.elem d 32 e))
          ((List.range n).map fun i => (f.decode (s.elem a f.bits (n * e + i)), f.decode (s.elem b f.bits (n * e + i))))
        Goes (exec (.vfdot ty d a b k) s) fun t =>
          SetsV d 32 on (fun e => (r e).1) s t ∧ RaisesFlags 32 on (fun e => (r e).2) s t)

/-- Compares give each active element's bit of m_d their condition; floating compares raise NV in the element's lane for a
NaN operand in the forms .LT and .LE (R153, R155). -/
def Obligations.VectorCompares : Prop :=
  ∀ (s : State) (d : MReg) (a b : Reg) (k : VMask),
    let on := s.actives k
    (∀ ty : IntTy, s.ewBits = intW ty →
      let w := intW ty
      let read (v : Nat) : Int := if intS ty then (BitVec.ofNat w v).toInt else (v : Int)
      let x (e : Nat) : Int := read (s.elem a w e)
      let y (e : Nat) : Int := read (s.elem b w e)
      ∀ p ∈ ([(.vseq ty d a b k, fun e => decide (x e = y e)), (.vsne ty d a b k, fun e => decide (x e ≠ y e)),
          (.vslt ty d a b k, fun e => decide (x e < y e)), (.vsle ty d a b k, fun e => decide (x e ≤ y e)),
          (.vsgt ty d a b k, fun e => decide (y e < x e)), (.vsge ty d a b k, fun e => decide (y e ≤ x e))] :
            List (Instr × (Nat → Bool))),
        Goes (exec p.1 s) fun t => SetsM d on p.2 s t ∧ OnlyStrand s.cur s t) ∧
    ∀ ty : FTy, s.ewBits = (fmtOf ty).bits →
      let x (e : Nat) : FVal := (fmtOf ty).decode (s.elem a (fmtOf ty).bits e)
      let y (e : Nat) : FVal := (fmtOf ty).decode (s.elem b (fmtOf ty).bits e)
      let nan (e : Nat) : Bool := (x e).isNan || (y e).isNan
      ∀ p ∈ ([(.vfcmpeq ty d a b k, false, fun e => !nan e && (x e).eq (y e)),
          (.vfcmpne ty d a b k, false, fun e => nan e || !(x e).eq (y e)),
          (.vfcmplt ty d a b k, true, fun e => !nan e && (x e).lt (y e)),
          (.vfcmple ty d a b k, true, fun e => !nan e && !(y e).lt (x e))] : List (Instr × Bool × (Nat → Bool))),
        Goes (exec p.1 s) fun t => SetsM d on p.2.2 s t ∧
          RaisesFlags (fmtOf ty).bits on (fun e => if nan e && p.2.1 then 0x01 else 0) s t

/-- VCVT completes when EW is the wider width of its pair. A pair in which every value is exact widens exactly. A narrowing
pair clips each active element by R80 in the mode of VCFG, or by SR with the bits of R82, sets m7 at the active elements to
whether the value was clipped, raises the flags, and under SR advances RNGCTR by one (R80 to R82, R158). -/
def Obligations.VectorConversions : Prop :=
  ∀ (s : State) (f : CvtOp) (d a : Reg) (k : VMask),
    let src := (cvtPair f).1
    let dst := (cvtPair f).2
    let on := s.actives k
    let value (e : Nat) : FVal := src.value (s.elem a src.bits e)
    let cut (e : Nat) : Narrowed := dst.narrow (s.me.narrowMode e) (value e)
    s.ewBits = max src.bits dst.bits →
    (narrowing (src, dst) = false → Goes (exec (.vcvt f d a k) s) fun t =>
      SetsV d dst.bits on (fun e => dst.exact (value e)) s t ∧ OnlyStrand s.cur s t) ∧
    (narrowing (src, dst) = true → Goes (exec (.vcvt f d a k) s) fun t =>
      WritesV d dst.bits on (fun e => (cut e).code) s t ∧ WritesM 7 on (fun e => (cut e).sat) s t ∧
      t.me = { s.me.retired with v := t.me.v, m := t.me.m, vpi := s.me.vpi ||| (1 <<< d.toNat), pc := s.me.pc + 4,
                                 rngCtr := if s.me.rm = 5 then s.me.rngCtr + 1 else s.me.rngCtr } ∧
      RaisesFlags dst.bits on (fun e => (cut e).flags) s t)

/-- Reductions combine g_b with the active elements and write v_d[0], unless the strand holds no lane group; VSTAT.EMPTY
says whether no element was active. The ordered sum goes from the lowest element up, the others by the tree of R89 (R89,
R146, R159, R160). Scans give each active element the running sum from g_b through the active elements up to it, and set
VSTAT.EMPTY (R159, R160). -/
def Obligations.VectorReductionsAndScans : Prop :=
  (∀ (s : State) (d a b : Reg) (k : VMask),
     let on := s.actives k
     let m := rmode s.me.rm
     let first : List Nat := if s.held = 0 then [] else [0]
     let leaves (t : State) : Prop :=
       t.me = { s.me.retired with empty := on.isEmpty, v := t.me.v, pc := s.me.pc + 4,
                                  vpi := if s.held = 0 then s.me.vpi else s.me.vpi ||| (1 <<< d.toNat) }
     (∀ ty : IntTy, s.ewBits = intW ty →
       let w := intW ty
       let read (v : Nat) : Int := if intS ty then (BitVec.ofNat w v).toInt else (v : Int)
       let seed : Nat := (s.readG b).toNat % 2 ^ w
       let xs : List Nat := on.map fun e => s.elem a w e
       ∀ p ∈ ([(.vredAdd ty d a b k, (xs.map read).foldl (fun x y => x + y) (read seed)),
           (.vredMin ty d a b k, (xs.map read).foldl min (read seed)),
           (.vredMax ty d a b k, (xs.map read).foldl max (read seed)),
           (.vredAnd ty d a b k, ((xs.foldl (fun x y => x &&& y) seed : Nat) : Int)),
           (.vredOr ty d a b k, ((xs.foldl (fun x y => x ||| y) seed : Nat) : Int)),
           (.vredXor ty d a b k, ((xs.foldl (fun x y => x ^^^ y) seed : Nat) : Int))] : List (Instr × Int)),
         Goes (exec p.1 s) fun t =>
           WritesV d w first (fun _ => (p.2 % 2 ^ w).toNat) s t ∧ leaves t ∧ OnlyStrand s.cur s t) ∧
     ∀ ty : FTy, s.ewBits = (fmtOf ty).bits →
       let f := fmtOf ty
       let seed : Nat × Flags := ((s.readG b).toNat % 2 ^ f.bits, 0)
       let item (e : Nat) : Nat × Flags := (s.elem a f.bits e, 0)
       let tree (op : Nat → Nat → Nat × Flags) : Nat × Flags :=
         match treeFold (withFlags op) 13 ((List.range s.vlen).map fun e => if e ∈ on then some (item e) else none) with
         | none => seed
         | some x => withFlags op seed x
       ∀ p ∈ ([(.vfredTree ty d a b k, tree (f.addF m)), (.vfredSeq ty d a b k, (on.map item).foldl (withFlags (f.addF m)) seed),
           (.vfredMin ty d a b k, tree fun x y => (f.minF x y, 0)), (.vfredMax ty d a b k, tree fun x y => (f.maxF x y, 0))] :
             List (Instr × Nat × Flags)),
         Goes (exec p.1 s) fun t =>
           WritesV d f.bits first (fun _ => p.2.1) s t ∧ leaves t ∧ RaisesFlags f.bits first (fun _ => p.2.2) s t) ∧
  (∀ (s : State) (d a b : Reg) (k : VMask),
     let on := s.actives k
     let leaves (t : State) : Prop :=
       t.me = { s.me.retired with empty := on.isEmpty, v := t.me.v, pc := s.me.pc + 4,
                                  vpi := s.me.vpi ||| (1 <<< d.toNat) }
     (∀ ty : IntTy, s.ewBits = intW ty →
       let w := intW ty
       Goes (exec (.vscan ty d a b k) s) fun t =>
         WritesV d w on (fun e => (s.readG b).toNat + ((on.filter fun i => i ≤ e).map fun i => s.elem a w i).sum) s t ∧
         leaves t ∧ OnlyStrand s.cur s t) ∧
     ∀ ty : FTy, s.ewBits = (fmtOf ty).bits →
       let f := fmtOf ty
       let upTo (e : Nat) : Nat × Flags := ((on.filter fun i => i ≤ e).map fun i => (s.elem a f.bits i, (0 : Flags))).foldl
         (withFlags (f.addF (rmode s.me.rm))) ((s.readG b).toNat % 2 ^ f.bits, 0)
       Goes (exec (.vfscan ty d a b k) s) fun t =>
         WritesV d f.bits on (fun e => (upTo e).1) s t ∧ leaves t ∧ RaisesFlags f.bits on (fun e => (upTo e).2) s t)

/-- Every typed vector form, of computation and of memory, whose width is not EW takes Vector State (0x09) and changes no
register and no byte; what TREC holds is left open (R99, R157, R158, R165, R167). An accumulator that the strand does not
hold: MOPA, ACCZ, ACCMOV and the accumulator loads and stores take Matrix State (0x08) with its number, and nothing else
changes (R185). -/
def Obligations.WidthAndAccumulatorTraps : Prop :=
  (∀ (s : State), s.me.ta = false →
     let stops (l : List Instr) : Prop := ∀ i ∈ l, ∃ addr, Goes (exec i s) fun t =>
       TakesTrap (Trap.sync 0x09 addr) s t ∧ t.me.g = s.me.g ∧ t.me.v = s.me.v ∧ t.me.m = s.me.m ∧ OnlyStrand s.cur s t
     ∀ (d a b : Reg) (mk : MReg) (n : BitVec 3) (k : VMask),
     (∀ ty : IntTy, s.ewBits ≠ intW ty →
       stops [.vsplat ty d a k, .vmvg ty d a b, .vmvv ty d a b, .vid ty d k, .vmv ty d a k, .vmerge ty d a b mk,
         .vmprefix ty d mk k, .vshup ty d a b k, .vshdn ty d a b k, .vperm ty d a b k, .vpackm ty d a mk, .vreshape ty d a b,
         .vbcast ty d a b k] ∧
       stops [.vadd ty d a b k, .vsub ty d a b k, .vmul ty d a b k, .vmulh ty d a b k, .vdiv ty d a b k, .vrem ty d a b k,
         .vmin ty d a b k, .vmax ty d a b k, .vand ty d a b k, .vor ty d a b k, .vxor ty d a b k, .vsll ty d a b k,
         .vsr ty d a b k, .vadds ty d a b k, .vsubs ty d a b k, .vmac ty d a b k] ∧
       stops [.vseq ty mk a b k, .vsne ty mk a b k, .vslt ty mk a b k, .vsle ty mk a b k, .vsgt ty mk a b k, .vsge ty mk a b k,
         .vredAdd ty d a b k, .vredMin ty d a b k, .vredMax ty d a b k, .vredAnd ty d a b k, .vredOr ty d a b k,
         .vredXor ty d a b k, .vscan ty d a b k] ∧
       stops [.vaddVs ty d a b k, .vsubVs ty d a b k, .vrsubVs ty d a b k, .vmulVs ty d a b k, .vminVs ty d a b k,
         .vmaxVs ty d a b k, .vandVs ty d a b k, .vsllVs ty d a b k]) ∧
     (∀ ty : FTy, s.ewBits ≠ (fmtOf ty).bits →
       stops [.vfadd ty d a b k, .vfsub ty d a b k, .vfmul ty d a b k, .vfdiv ty d a b k, .vfsqrt ty d a k, .vfmin ty d a b k,
         .vfmax ty d a b k, .vfmac ty d a b k, .vfmsc ty d a b k, .vfcopys ty d a b k, .vfcopysn ty d a b k, .vfkind ty d a k] ∧
       stops [.vfcmpeq ty mk a b k, .vfcmpne ty mk a b k, .vfcmplt ty mk a b k, .vfcmple ty mk a b k, .vfredTree ty d a b k,
         .vfredSeq ty d a b k, .vfredMin ty d a b k, .vfredMax ty d a b k, .vfscan ty d a b k] ∧
       stops [.vfaddVs ty d a b k, .vfsubVs ty d a b k, .vfrsubVs ty d a b k, .vfmulVs ty d a b k, .vfdivVs ty d a b k,
         .vfrdivVs ty d a b k, .vfmacVs ty d a b k, .vfmaxVs ty d a b k]) ∧
     (∀ ty : WIntTy, s.ewBits ≠ 2 * intW (wintTy ty) →
       stops [.vwadd ty d a b k, .vwsub ty d a b k, .vwmul ty d a b k, .vwmac ty d a b k]) ∧
     (∀ ty : FWTy, s.ewBits ≠ (fwFmts ty).2.bits →
       stops [.vfwadd ty d a b k, .vfwsub ty d a b k, .vfwmul ty d a b k, .vfwmac ty d a b k]) ∧
     (s.ewBits ≠ 32 → (∀ ty : ByteTy, stops [.vdot ty d a b k]) ∧ ∀ ty : DotTy, stops [.vfdot ty d a b k]) ∧
     (∀ f : CvtOp, s.ewBits ≠ max (cvtPair f).1.bits (cvtPair f).2.bits → stops [.vcvt f d a k]) ∧
     (∀ w : Width, s.ewBits ≠ widthBits w → stops [.vld w d a k, .vldFf w d a b k, .vst w d a k]) ∧
     (∀ w : Width4, s.ewBits ≠ width4Bits w →
       stops [.vlds w d a b k, .vsts w d a b k, .vlseg w n d a k, .vsseg w n d a k, .vgather w d a b k, .vscatter w d a b k,
         .vgatherNb w d a b k, .vlsl w d a b k, .vssl w d a b k]) ∧
     (∀ w : SendW, s.ewBits ≠ sendBits w → stops [.vsend w d a b k]) ∧
     ∀ ty : VlwTy, s.ewBits ≠ 16 → stops [.vlw ty d a k]) ∧
  (∀ (s : State) (ty : MxTy) (mix : MixTy) (n : AccN) (d a b : Reg) (mr mc : MReg) (grp : BitVec 3), s.me.ta = false →
     (s.tile s.myTile).accOwner.getD n.toNat none ≠ some (subOf s.cur) →
     ∀ i ∈ ([.mopa ty n a b mr mc grp, .mopaMixed mix n a b mr mc grp, .accz n, .acczM n mr mc, .accmovRv n d b mc grp,
         .accmovCv n d b mc grp, .accmovVr n a b mc grp, .accmovVc n a b mc grp, .mldF32 n a b mr mc, .mldF64 n a b mr mc,
         .mldBf16 n a b mr mc, .mldFfF32 n a b mr mc, .mldFfF64 n a b mr mc, .mstF32 n a b mr mc, .mstF64 n a b mr mc,
         .mstBf16 n a b mr mc] : List Instr),
       Goes (exec i s) fun t => TakesTrap (Trap.sync 0x08 (BitVec.ofNat 64 n.toNat)) s t ∧ OnlyStrand s.cur s t)

/-! ## Vector and matrix memory instructions -/

/-- Vector loads of ordinary memory at VL > 0 give each active element the value at its address: unit stride, with the bits
of a width below 8 packed, strided, and indexed. Nothing else of v_d and no byte of memory changes (R76, R166, R174, R177,
R178). -/
def Obligations.VectorLoads : Prop :=
  ∀ (s : State) (d a x : Reg) (k : VMask), Fresh s → s.vlen ≠ 0 →
    let on := s.actives k
    let base := s.readG a
    let st := s.readG x
    (∀ w : Width, s.ewBits = widthBits w →
      let n := widthBits w
      let units := plainUnits base n
      base.toNat % unitBytes n = 0 → (∀ e ∈ on, ∀ u ∈ units e, PlainAt s u (unitBytes n)) →
      Goes (exec (.vld w d a k) s) fun t =>
        LoadsV d n on (fun e => fromUnits n e (unitsNat s.mem (unitBytes n) (units e))) s t ∧
        OnlyStrandAndLines s.cur (on.flatMap units) s t) ∧
    ∀ w : Width4, s.ewBits = width4Bits w →
      let n := width4Bits w
      let z := n / 8
      ∀ p ∈ ([(.vlds w d a x k, fun e => base + BitVec.ofNat 64 e * st, base.toNat % z = 0 ∧ st.toNat % z = 0),
          (.vgather w d a x k, fun e => base + BitVec.ofNat 64 (s.elem x n e * z), True),
          (.vgatherNb w d a x k, fun e => base + BitVec.ofNat 64 (s.elem x n e * z), True)] :
            List (Instr × (Nat → Word) × Prop)),
        p.2.2 → (∀ e ∈ on, PlainAt s (p.2.1 e) z) → Goes (exec p.1 s) fun t =>
          LoadsV d n on (fun e => leNat (memGetBytes s.mem (p.2.1 e).toNat z)) s t ∧
          OnlyStrandAndLines s.cur (on.map p.2.1) s t

/-- Vector stores to ordinary memory at VL > 0 write each active element at its address in ascending order and no other
byte; the store stays outstanding, a VSCATTER as one train per destination (R166, R174, R177, R181, R209). VST of 4-bit or
6-bit elements writes exactly the bits of the active elements in the packed string at g_a (R76, R167, R174). -/
def Obligations.VectorStores : Prop :=
  (∀ (s : State) (d a x : Reg) (k : VMask), Fresh s → s.vlen ≠ 0 → s.me.run = .running →
     let on := s.actives k
     let base := s.readG a
     let st := s.readG x
     let plain (l : List Word) : List Outst := storesLeft s .vector l
     let trains (l : List Word) : List Outst := s.trainsOf (l.map fun u => (trainDest u.toNat, u))
     ∀ w : Width4, s.ewBits = width4Bits w →
       let n := width4Bits w
       let z := n / 8
       let w' : Width := match w with | .w8 => .w8 | .w16 => .w16 | .w32 => .w32 | .w64 => .w64
       ∀ p ∈ ([(.vst w' d a k, fun e => base + BitVec.ofNat 64 (e * z), base.toNat % z = 0, plain),
           (.vsts w d a x k, fun e => base + BitVec.ofNat 64 e * st, base.toNat % z = 0 ∧ st.toNat % z = 0, plain),
           (.vscatter w d a x k, fun e => base + BitVec.ofNat 64 (s.elem x n e * z), True, trains)] :
             List (Instr × (Nat → Word) × Prop × (List Word → List Outst))),
         p.2.2.1 → (∀ e ∈ on, PlainAt s (p.2.1 e) z) → Goes (exec p.1 s) fun t =>
           t.me = { s.me.retired with pc := s.me.pc + 4, outst := s.me.outst ++ p.2.2.2 (on.map p.2.1) } ∧
           WroteAll s.cur z (on.map fun e => ((p.2.1 e).toNat, s.elem d n e)) s t) ∧
  (∀ (s : State) (d a : Reg) (k : VMask) (w : Width), w = .w4 ∨ w = .w6 → s.ewBits = widthBits w →
     Fresh s → s.vlen ≠ 0 → s.me.run = .running →
     let n := widthBits w
     let on := s.actives k
     let byte (i : Nat) : Nat := (s.readG a + BitVec.ofNat 64 (i / 8)).toNat
     (∀ e ∈ on, ∀ u ∈ plainUnits (s.readG a) n e, PlainAt s u 1) → Goes (exec (.vst w d a k) s) fun t =>
       (∀ e ∈ on, ∀ i, i < n → (memGet t.mem (byte (n * e + i))).getLsbD ((n * e + i) % 8) = (s.elem d n e).testBit i) ∧
       (∀ b i, i < 8 → (∀ e ∈ on, ∀ j, j < n → ¬(b = byte (n * e + j) ∧ i = (n * e + j) % 8)) →
         (memGet t.mem b).getLsbD i = (memGet s.mem b).getLsbD i) ∧
       t.me = { s.me.retired with pc := s.me.pc + 4, outst := t.me.outst } ∧
       t = { s with strands := t.strands, dir := t.dir, triggers := t.triggers, mem := t.mem })

/-- Segment accesses of ordinary memory at VL > 0: field f of each active element lies n·e + f elements past g_a and belongs
to v(d + f) (R166, R176). VLD.FF of ordinary memory sets VL and g_x to the elements it has performed: all of them, or those
below the first one that reaches into the dump region, where no access may go, when a lower active element has passed, in
whole groups of four at width 6 (R175, R409). -/
def Obligations.SegmentsAndFaultOnlyFirst : Prop :=
  (∀ (s : State) (w : Width4) (c : BitVec 3) (d a : Reg) (k : VMask), s.ewBits = width4Bits w → Fresh s → s.vlen ≠ 0 →
     let n := width4Bits w
     let z := n / 8
     let nf := c.toNat + 1
     let on := s.actives k
     let at_ (e f : Nat) : Word := s.readG a + BitVec.ofNat 64 ((nf * e + f) * z)
     let reg (f : Nat) : Reg := d + BitVec.ofNat 5 f
     let all := on.flatMap fun e => (List.range nf).map fun f => at_ e f
     (s.readG a).toNat % z = 0 → (∀ u ∈ all, PlainAt s u z) →
     (Goes (exec (.vlseg w c d a k) s) fun t =>
       (∀ f, f < nf → ∀ e ∈ on, n * (e + 1) ≤ 16384 → t.elem (reg f) n e = leNat (memGetBytes s.mem (at_ e f).toNat z)) ∧
       (∀ f, f < nf → ∀ i, (∀ e ∈ on, ¬(n * e ≤ i ∧ i < n * e + n)) →
         (t.vreg (reg f)).getLsbD i = (s.vreg (reg f)).getLsbD i) ∧
       (∀ r, (∀ f, f < nf → r ≠ reg f) → t.vreg r = s.vreg r) ∧
       t.me = { s.me.retired with v := t.me.v, vpi := t.me.vpi, pc := s.me.pc + 4, partly := s.me.retired.partly &&&
         ~~~((List.range nf).foldl (fun v f => v ||| ((1 : BitVec 32) <<< (reg f).toNat)) 0) } ∧
       OnlyStrandAndLines s.cur all s t) ∧
     (s.me.run = .running → Goes (exec (.vsseg w c d a k) s) fun t =>
       t.me = { s.me.retired with pc := s.me.pc + 4, outst := s.me.outst ++ storesLeft s .vector all } ∧
       WroteAll s.cur z
         (on.flatMap fun e => (List.range nf).map fun f => ((at_ e f).toNat, s.elem (reg f) n e)) s t)) ∧
  (∀ (s : State) (w : Width) (d a x : Reg) (k : VMask), s.ewBits = widthBits w → Fresh s → s.vlen ≠ 0 →
     let n := widthBits w
     let on := s.actives k
     let units := plainUnits (s.readG a) n
     let out (u : Word) : Prop := 0xBF_8000_0000 ≤ u.toNat ∧ u.toNat < 0xC0_0000_0000
     let whole (v : Nat) : Nat := if n = 6 ∧ 4 ≤ v then 4 * (v / 4) else v
     let done (v : Nat) : Prop := Goes (exec (.vldFf w d a x k) s) fun t =>
       let low := on.filter fun e => e < v
       WritesV d n low (fun e => fromUnits n e (unitsNat s.mem (unitBytes n) (units e))) s t ∧
       t.readG x = (if x = 0 then 0 else BitVec.ofNat 64 v) ∧ (∀ r, r ≠ x → t.readG r = s.readG r) ∧
       t.me = { s.me.retired with g := t.me.g, v := t.me.v, vl := v, pc := s.me.pc + 4,
                                  vpi := if low.isEmpty then s.me.vpi else s.me.vpi ||| (1 <<< d.toNat),
                                  partly := s.me.retired.partly &&& ~~~((1 : BitVec 32) <<< d.toNat) } ∧
       OnlyStrandAndLines s.cur (on.flatMap units) s t
     (s.readG a).toNat % unitBytes n = 0 → s.me.root = 0 →
     ((∀ e ∈ on, ∀ u ∈ units e, PlainAt s u (unitBytes n)) → done (whole s.vlen)) ∧
     ∀ e0 ∈ on, (∃ e ∈ on, e < e0) → (∀ e ∈ on, e < e0 → ∀ u ∈ units e, PlainAt s u (unitBytes n)) →
       (∃ u ∈ units e0, out u) → (∀ u ∈ units e0, out u ∨ PlainAt s u (unitBytes n)) → done (whole e0))

/-- VLW at EW = 16 gives each active element its code, scaled by the block and the band scale in v31 and narrowed to BF16,
sets m7 to what was clipped, and raises the flags in the element's lane (R84, R85, R87, R182). VSEND writes each active
element into the tile memory that its index names and keeps one train per destination outstanding. An element whose offset
i[18:0] + g_a, an exact sum, needs more than the tile's 512 KiB, one beyond 64 bits included, is not written: with every
active element of that kind and no train outstanding the instruction takes Access Violation (0x07) with the lowest one's
offset (its low 64 bits, log 98) and, in LGCNT, what each slot has done; nothing else changes. VLSL and VSSL move elements
from and to the slice of the lane that holds them; VSSL leaves no poison in a half that it writes whole (R11, R57, R139,
R170, R179, R180, R181, R388). -/
def Obligations.WeightsSendsAndLaneSlices : Prop :=
  (∀ (s : State) (ty : VlwTy) (d a : Reg) (k : VMask), s.ewBits = 16 → Fresh s → s.vlen ≠ 0 →
     let f := (vlwSource ty).1
     let per := (vlwSource ty).2
     let on := s.actives k
     let units := plainUnits (s.readG a) f.bits
     let code (e : Nat) : FVal := f.decode (fromUnits f.bits e (unitsNat s.mem 1 (units e)))
     let block (e : Nat) : FVal := e3m5.decode (elemOf (s.vreg 31) 8 (256 * (e / per / 64) + e / per % 64))
     let band (e : Nat) : FVal := bf16.decode (elemOf (s.vreg 31) 16 (128 * (e / per / 64) + 64))
     let r (e : Nat) : Narrowed := bf16.sat .rne (((code e).mul (block e)).1.mul (band e)).1
     let nv (e : Nat) : Flags :=
       if (((code e).mul (block e)).2 || (((code e).mul (block e)).1.mul (band e)).2) && !(code e).isNan &&
         !(block e).isNan && !(band e).isNan then 0x01 else 0
     (∀ e ∈ on, ∀ u ∈ units e, PlainAt s u 1) → Goes (exec (.vlw ty d a k) s) fun t =>
       WritesV d 16 on (fun e => (r e).code) s t ∧ WritesM 7 on (fun e => (r e).sat) s t ∧
       t.me = { s.me.retired with v := t.me.v, m := t.me.m, pc := s.me.pc + 4,
                                  vpi := if on.isEmpty then s.me.vpi else s.me.vpi ||| (1 <<< d.toNat),
                                  partly := s.me.retired.partly &&& ~~~((1 : BitVec 32) <<< d.toNat) } ∧
       (∀ L, L < 32 → laneFlag t L = (on.filter fun e => laneOf (s.groupsOf s.cur) 16 e == L).foldl
         (fun x e => x ||| ((r e).flags ||| nv e)) (laneFlag s L)) ∧
       t = { s with strands := t.strands, tiles := t.tiles, dir := t.dir } ∧
       ∀ b, memGet t.mem b = memGet s.mem b) ∧
  (∀ (s : State) (d a x : Reg) (k : VMask), Fresh s → s.vlen ≠ 0 →
     let on := s.actives k
     (∀ w : SendW, s.ewBits = sendBits w →
       let n := sendBits w
       let z := n / 8
       let i (e : Nat) : Nat := s.elem x n e
       let tl (e : Nat) : Nat := i e / 2 ^ 19 % 2 ^ 10
       let o (e : Nat) : Nat := (s.readG a).toNat + i e % 2 ^ 19
       let key (e : Nat) : Nat := 0xF00_2000_0000 + tl e * 0x8_0000 + o e
       (s.me.run = .running → (∀ e ∈ on, i e < 2 ^ 29 ∧ tl e < 640 ∧ o e % z = 0 ∧ o e + z ≤ 0x8_0000 ∧
         s.mayReach s.myTile (.tile (tl e) (o e)) = true ∧ s.isPoisoned (key e) z = false) →
       Goes (exec (.vsend w d a x k) s) fun t =>
         t.me = { s.me.retired with pc := s.me.pc + 4,
                                    outst := s.me.outst ++ s.trainsOf (on.map fun e => (168 + tl e, BitVec.ofNat 64 (key e))) } ∧
         WroteAll s.cur z (on.map fun e => (key e, s.elem d n e)) s t) ∧
       (∀ e0 ∈ on, (∀ e ∈ on, e0 ≤ e) → s.me.ta = false → (∀ b ∈ s.me.outst, b.kind.isTrain = false) →
         (∀ e ∈ on, n * (e + 1) ≤ 16384 ∧ i e < 2 ^ 29 ∧ tl e < 640 ∧ o e % z = 0 ∧ 0x8_0000 < o e + z) →
         Goes (exec (.vsend w d a x k) s) fun t => OnlyStrand s.cur s t ∧
           t.me = s.me.trapped { Trap.sync 0x07 (BitVec.ofNat 64 (o e0)) with tlg := t.me.tlg } ∧
           ∀ j, j < 8 → (t.me.tlg.getD j 0).toNat =
             match on.find? fun e => n * e / 2048 == j with
             | some e => e - 2048 / n * j
             | none => if j < s.held then 2048 / n else 0)) ∧
     ∀ w : Width4, s.ewBits = width4Bits w →
       let n := width4Bits w
       let z := n / 8
       let off (e : Nat) : Nat := (s.readG a + BitVec.ofNat 64 (s.elem x n e * z)).toNat
       let lane (e : Nat) : Nat := laneOf (s.groupsOf s.cur) n e
       let slice (u : State) (L : Nat) : Slice := (u.tile u.myTile).slices.getD L 0
       let key (e : Nat) : Nat := sliceKey s.myTile (lane e) + off e
       (∀ e ∈ on, off e + z ≤ 4096 ∧ off e % z = 0) →
       ((∀ e ∈ on, s.isPoisoned (key e) z = false) → Goes (exec (.vlsl w d a x k) s) fun t =>
         LoadsV d n on (fun e => (slice s (lane e)).toNat / 2 ^ (8 * off e)) s t ∧ OnlyStrand s.cur s t) ∧
       Goes (exec (.vssl w d a x k) s) fun t =>
         (∀ L, L < 32 → slice t L = (on.filter fun e => lane e == L).foldl
           (fun v e => setField v (8 * off e) n (s.elem d n e)) (slice s L)) ∧
         RetiresTo (s.me.pc + 4) s t ∧
         (∀ j, j ≠ s.myTile → t.tile j = s.tile j) ∧
         t.tile s.myTile = { s.tile s.myTile with slices := (t.tile s.myTile).slices } ∧
         (∀ h, h ∈ t.poison ↔ h ∈ s.poison ∧
           ¬∀ i, i < 64 → ∃ e ∈ on, key e ≤ 64 * h + i ∧ 64 * h + i < key e + z) ∧
         t = { s with strands := t.strands, tiles := t.tiles, poison := t.poison } ∧
         ∀ j, j ≠ s.cur → t.strand j = s.strand j)

/-- At VL = 0, with the right EW, a vector memory instruction reads and writes no memory and retires; VLD.FF writes 0 to g_x
(R165, R175). At VL = 0 an accumulator load or store of an accumulator that the strand holds reads and writes nothing and
retires, and so does an ACCMOV at EW 32 or 64, whatever its index and group (R186, R195). -/
def Obligations.EmptyAccesses : Prop :=
  (∀ (s : State) (w : Width) (v : Width4) (q : SendW) (ty : VlwTy) (c : BitVec 3) (d a x : Reg) (k : VMask), s.vlen = 0 →
     (∀ p ∈ ([(.vld w d a k, widthBits w), (.vst w d a k, widthBits w), (.vlds v d a x k, width4Bits v),
         (.vsts v d a x k, width4Bits v), (.vgather v d a x k, width4Bits v), (.vgatherNb v d a x k, width4Bits v),
         (.vscatter v d a x k, width4Bits v), (.vlseg v c d a k, width4Bits v), (.vsseg v c d a k, width4Bits v),
         (.vsend q d a x k, sendBits q), (.vlsl v d a x k, width4Bits v), (.vssl v d a x k, width4Bits v),
         (.vlw ty d a k, 16)] : List (Instr × Nat)),
       s.ewBits = p.2 → Goes (exec p.1 s) fun t => RetiresTo (s.me.pc + 4) s t ∧ OnlyStrand s.cur s t) ∧
     (s.ewBits = widthBits w → Goes (exec (.vldFf w d a x k) s) fun t => SetsG x 0 s t ∧ OnlyStrand s.cur s t)) ∧
  (∀ (s : State) (n : AccN) (d a b : Reg) (mr mc : MReg) (grp : BitVec 3), s.vlen = 0 →
     (s.tile s.myTile).accOwner.getD n.toNat none = some (subOf s.cur) →
     ∀ i ∈ (if s.ewBits = 32 ∨ s.ewBits = 64 then [.accmovRv n d b mc grp, .accmovCv n d b mc grp, .accmovVr n a b mc grp,
         .accmovVc n a b mc grp] else []) ++ ([.mldF32 n a b mr mc, .mldF64 n a b mr mc, .mldBf16 n a b mr mc, .mldFfF32 n a b mr mc, .mldFfF64 n a b mr mc,
         .mstF32 n a b mr mc, .mstF64 n a b mr mc, .mstBf16 n a b mr mc] : List Instr),
       Goes (exec i s) fun t => RetiresTo (s.me.pc + 4) s t ∧ OnlyStrand s.cur s t)

/-! ## SETVL and the matrix unit -/

/-- SETVL, and SETVL_RETRY of a strand stalled in it, grant what R33 allows: alone, the groups needed as far as they are
free; beside other strands that hold groups or are stalled, at most the strand's part of the eight. Groups are given up from
the highest and taken from the lowest, with lane slices at zero; VL is the least of AVL and VLMAX of the grant; with no
group to be had the strand is stalled. While the set of groups stays, so do the registers, and which of them are partly loaded
(R33, R143). No pre-emption request is waiting at user level, and no strand of the tile with a lower number makes an allocation in the
same cycle; where one does, it goes first: the issue of a SETVL waits for it, and a retry does nothing (R20, R33, R58, R93, R114,
R144). -/
def Obligations.SetvlGrants : Prop :=
  ∀ (s : State) (k : Nat) (w : Width) (avl : Word) (d a : Reg) (i : Instr),
    (i = .setvl w d a ∧ k = s.cur ∧ avl = s.readG a) ∨ (i = .setvlRetry k ∧ (s.strand k).run = .stalled w avl d) →
    (s.strand k).pend.preempt = none ∨ (s.strand k).pl = true →
    (∀ m, i = .setvl w d a → s.before s.cur isSetvl true = some m → exec i s = .next { s with
      plan := m.withWait 0 :: .issue s.cur 0 :: takeOut m s.plan, issued := s.issued.filter fun e => e.1 != s.cur }) ∧
    (i = .setvlRetry k → (s.before k isSetvl false).isSome → exec i s = .next s) ∧
    ((i = .setvl w d a → s.before s.cur isSetvl true = none) → (i = .setvlRetry k → s.before k isSetvl false = none) →
    let x := s.strand k
    let tl := tileOf k
    let stalled (j : Nat) : Prop := ∃ w' avl' d', (s.strand j).run = .stalled w' avl' d'
    (i = .setvl w d a ∨ ∀ j, j < k → tileOf j = tl → ¬stalled j) →
    let need := groupsFor avl.toNat (widthBits w)
    let mine := s.groupsOf k
    let free := (s.tile tl).freeGroups
    let rivals := (List.range 4).filter fun j => j ≠ k % 4 && (s.demand tl).contains j
    let low := (rivals.filter fun j => j < k % 4).length
    let part := 8 / (rivals.length + 1) + if low < 8 % (rivals.length + 1) then 1 else 0
    let n := min (if rivals = [] then need else min need part) (mine.length + free.length)
    let cap := if w = .w6 then 4 * (n * 2048 / 24) else n * 2048 / widthBits w
    let vl := if w = .w6 ∧ 4 ≤ min avl.toNat cap then 4 * (min avl.toNat cap / 4) else min avl.toNat cap
    (need = 0 ∨ 0 < n → Goes (exec i s) fun t =>
      (∀ j, j ∈ t.groupsOf k ↔ j ∈ mine.take n ∨ j ∈ free.take (n - mine.length)) ∧
      (t.strand k).readG d = (if d = 0 then 0 else BitVec.ofNat 64 vl) ∧
      (∀ r, r ≠ d → (t.strand k).readG r = x.readG r) ∧
      t.strand k = { x.retired with
        run := .running, g := (t.strand k).g, vl := vl, ew := w, vpi := 0, pc := x.pc + 4,
        partly := if n = mine.length then x.retired.partly else 0,
        v := if n = mine.length then x.v else Vector.replicate 32 0,
        vflags := (mine.drop n).foldl (fun f j => (List.range 4).foldl (fun f c =>
          f ||| (s.tile tl).laneFlags.getD (4 * j + c) 0) f) x.vflags } ∧
      (∀ j ∈ free.take (n - mine.length), ∀ c, c < 4 → (t.tile tl).slices.getD (4 * j + c) 0 = 0) ∧
      (∀ h, h ∈ t.poison ↔ h ∈ s.poison ∧ ∀ j ∈ free.take (n - mine.length), ∀ c, c < 4 →
        ¬(sliceKey tl (4 * j + c) ≤ 64 * h ∧ 64 * h < sliceKey tl (4 * j + c) + 4096)) ∧
      (∀ j, j ≠ tl → t.tile j = s.tile j) ∧ (∀ j, j ≠ k → t.strand j = s.strand j) ∧
      t = { s with strands := t.strands, tiles := t.tiles, poison := t.poison }) ∧
    (need ≠ 0 → n = 0 → Goes (exec i s) fun t =>
      t.strand k = { x with run := .stalled w avl d } ∧ OnlyStrand k s t))

/-- ACCON takes a free accumulator, zeroed, and says so in g_d, after the strands of its tile with lower numbers that reach an
ACCON in the same cycle; ACCOFF waits until every store from the accumulator is
acknowledged and then gives it up, its contents discarded (zero in the model); ACCZ and ACCZ.M zero rows of the FP32 view
below VL, and the ACCMOV forms move a row or a column of the EW view between an accumulator that the strand holds and
positions of a vector register, at the positions that the mask enables (R20, R58, R183 to R190, R195). -/
def Obligations.AccumulatorMoves : Prop :=
  ∀ (s : State) (n : AccN) (d a b : Reg) (mr mc : MReg) (grp : BitVec 3),
    let owner (u : State) (i : Nat) : Option (Fin 4) := (u.tile u.myTile).accOwner.getD i none
    let on (m : MReg) (i : Nat) : Bool := (s.mask m).getLsbD i
    let rest (t : State) : Prop :=
      (∀ i, i ≠ n → t.acc i = s.acc i) ∧ t = { s with strands := t.strands, tiles := t.tiles } ∧
      (∀ j, j ≠ s.cur → t.strand j = s.strand j) ∧ (∀ j, j ≠ s.myTile → t.tile j = s.tile j) ∧
      t.tile s.myTile = { s.tile s.myTile with acc := (t.tile s.myTile).acc, accOwner := (t.tile s.myTile).accOwner } ∧
      ∀ i, i ≠ n.toNat → owner t i = owner s i
    (∀ m, s.before s.cur isAccon false = some m → exec (.accon n d) s = .next { s with
      plan := m.withWait 0 :: .issue s.cur 0 :: takeOut m s.plan, issued := s.issued.filter fun e => e.1 != s.cur }) ∧
    (s.before s.cur isAccon false = none → owner s n.toNat = none → Goes (exec (.accon n d) s) fun t =>
      SetsG d 1 s t ∧ owner t n.toNat = some (subOf s.cur) ∧ t.acc n = 0 ∧ rest t) ∧
    (∀ i, s.before s.cur isAccon false = none → owner s n.toNat = some i → Goes (exec (.accon n d) s) fun t =>
      SetsG d (if i = subOf s.cur then 1 else 0) s t ∧ OnlyStrand s.cur s t) ∧
    (owner s n.toNat ≠ some (subOf s.cur) → Goes (exec (.accoff n) s) fun t =>
      RetiresTo (s.me.pc + 4) s t ∧ OnlyStrand s.cur s t) ∧
    (owner s n.toNat = some (subOf s.cur) →
      ((∀ o ∈ s.me.outst, o.kind ≠ .acc n.toNat) → Goes (exec (.accoff n) s) fun t =>
        RetiresTo (s.me.pc + 4) s t ∧ owner t n.toNat = none ∧ t.acc n = 0 ∧ rest t) ∧
      ((∃ o ∈ s.me.outst, o.kind = .acc n.toNat) → exec (.accoff n) s = .next s) ∧
      (∀ p ∈ ([(.accz n, fun i _ => decide (i < s.vlen)),
          (.acczM n mr mc, fun i j => decide (i < s.vlen) && on mr i && on mc j)] : List (Instr × (Nat → Nat → Bool))),
        Goes (exec p.1 s) fun t =>
          (∀ i j, i < 64 → j < 64 → accElem (t.acc n) 32 i j = if p.2 i j then 0 else accElem (s.acc n) 32 i j) ∧
          RetiresTo (s.me.pc + 4) s t ∧ owner t n.toNat = owner s n.toNat ∧ rest t) ∧
      ∀ w, w = 32 ∨ w = 64 → s.ewBits = w → s.vlen ≠ 0 →
        let i := (s.readG b).toNat
        let base := 64 * grp.toNat
        let rows := if w = 64 then 32 else 64
        let cut (len : Nat) : List Nat := (List.range (min s.vlen len)).filter (on mc)
        (i < rows → base + 64 ≤ s.held * 2048 / w →
          (Goes (exec (.accmovRv n d b mc grp) s) fun t =>
            SetsV d w ((cut 64).map (base + ·)) (fun e => accElem (s.acc n) w i (e - base)) s t ∧ OnlyStrand s.cur s t) ∧
          Goes (exec (.accmovVr n a b mc grp) s) fun t =>
            (∀ r c, r < rows → c < 64 → accElem (t.acc n) w r c =
              if r = i ∧ c ∈ cut 64 then s.elem a w (base + c) else accElem (s.acc n) w r c) ∧
            RetiresTo (s.me.pc + 4) s t ∧ owner t n.toNat = owner s n.toNat ∧ rest t) ∧
        (i < 64 → base + rows ≤ s.held * 2048 / w →
          (Goes (exec (.accmovCv n d b mc grp) s) fun t =>
            SetsV d w ((cut rows).map (base + ·)) (fun e => accElem (s.acc n) w (e - base) i) s t ∧ OnlyStrand s.cur s t) ∧
          Goes (exec (.accmovVc n a b mc grp) s) fun t =>
            (∀ r c, r < rows → c < 64 → accElem (t.acc n) w r c =
              if c = i ∧ r ∈ cut rows then s.elem a w (base + r) else accElem (s.acc n) w r c) ∧
            RetiresTo (s.me.pc + 4) s t ∧ owner t n.toNat = owner s n.toNat ∧ rest t))

/-- MOPA of an accumulator that the strand holds, at the EW of its view, updates each enabled element below min(VL, RT) rows
with the containers of its row and its column, scaled where the operands are of 8 bits or fewer, and no other element; the
flags go to the strand's retained set (R87, R88, R93, R183, R185, R186, R191, R192, R193). -/
def Obligations.MatrixProducts : Prop :=
  ∀ (s : State) (ty : MxTy) (mix : MixTy) (n : AccN) (a b : Reg) (mr mc : MReg) (grp : BitVec 3),
    (s.tile s.myTile).accOwner.getD n.toNat none = some (subOf s.cur) →
    ∀ p ∈ ([(.mopa ty n a b mr mc grp, mxForm ty, mxForm ty),
        (.mopaMixed mix n a b mr mc grp, (mixForms mix).1, (mixForms mix).2)] : List (Instr × OpForm × OpForm)),
      let w := if p.2.1.fmt.bits = 64 then 64 else 32
      let rows := min s.vlen (if w = 64 then 32 else 64)
      let base := 64 * grp.toNat
      let cells := (List.range rows).flatMap fun i =>
        if (s.mask mr).getLsbD i then ((List.range 64).filter fun j => (s.mask mc).getLsbD j).map fun j => (i, j) else []
      let scales (i j : Nat) : List FVal := if p.2.1.fmt.bits ≤ 8 ∧ p.2.1.fmt ≠ .int true 8 ∧ p.2.1.fmt ≠ .int false 8 then
        [blockScale (s.vreg 31) (base + i) 0, blockScale (s.vreg 31) (base + j) 1, bandScale (s.vreg 31) grp.toNat 0,
         bandScale (s.vreg 31) grp.toNat 1] else []
      let new (i j : Nat) : Nat × Flags := mopaUpdate p.2.1 p.2.2 (accElem (s.acc n) w i j) (s.elem a w (base + i))
        (s.elem b w (base + j)) (scales i j)
      s.ewBits = w → rows = 0 ∨ base + 64 ≤ s.held * 2048 / w → Goes (exec p.1 s) fun t =>
        (∀ i j, i < (if w = 64 then 32 else 64) → j < 64 → accElem (t.acc n) w i j =
          if (i, j) ∈ cells then (new i j).1 % 2 ^ w else accElem (s.acc n) w i j) ∧
        t.me = { s.me.retired with pc := s.me.pc + 4,
                                   vflags := cells.foldl (fun f x => f ||| (new x.1 x.2).2) s.me.vflags } ∧
        (∀ i, i ≠ n → t.acc i = s.acc i) ∧ t = { s with strands := t.strands, tiles := t.tiles } ∧
        (∀ j, j ≠ s.cur → t.strand j = s.strand j) ∧ (∀ j, j ≠ s.myTile → t.tile j = s.tile j) ∧
        t.tile s.myTile = { s.tile s.myTile with acc := (t.tile s.myTile).acc }

/-- Accumulator loads and stores of ordinary memory: element (i, j) of the enabled rows below VL and columns lies at g_a +
i·g_b + j·z. A BF16 load widens exactly, a BF16 store narrows by R80, into m7 and the flags. MLD.FF keeps VL when every row
passes (R80, R185, R186, R197, R198, R200, R209). -/
def Obligations.AccumulatorMemory : Prop :=
  ∀ (s : State) (n : AccN) (a b : Reg) (mr mc : MReg), Fresh s → s.me.run = .running →
    (s.tile s.myTile).accOwner.getD n.toNat none = some (subOf s.cur) →
    ∀ (w z : Nat), (w = 32 ∧ (z = 4 ∨ z = 2)) ∨ (w = 64 ∧ z = 8) →
      let rows := min s.vlen (if w = 64 then 32 else 64)
      let cells := (List.range rows).flatMap fun i =>
        if (s.mask mr).getLsbD i then ((List.range 64).filter fun j => (s.mask mc).getLsbD j).map fun j => (i, j) else []
      let at_ (x : Nat × Nat) : Word := s.readG a + BitVec.ofNat 64 x.1 * s.readG b + BitVec.ofNat 64 (x.2 * z)
      let load (x : Nat × Nat) : Nat :=
        let v := leNat (memGetBytes s.mem (at_ x).toNat z)
        if z = 2 then (fp32.round .rne (bf16.decode v)).1 else v
      let cut (x : Nat × Nat) : Narrowed := bf16.sat .rne (fp32.decode (accElem (s.acc n) 32 x.1 x.2))
      s.vlen ≠ 0 → (s.readG a).toNat % z = 0 → (s.readG b).toNat % z = 0 → (∀ x ∈ cells, PlainAt s (at_ x) z) →
      (∀ i ∈ (if z = 4 then [.mldF32 n a b mr mc, .mldFfF32 n a b mr mc] else if z = 8 then
          [.mldF64 n a b mr mc, .mldFfF64 n a b mr mc] else [.mldBf16 n a b mr mc] : List Instr),
        Goes (exec i s) fun t =>
          (∀ r c, r < (if w = 64 then 32 else 64) → c < 64 → accElem (t.acc n) w r c =
            if (r, c) ∈ cells then load (r, c) % 2 ^ w else accElem (s.acc n) w r c) ∧
          RetiresTo (s.me.pc + 4) s t ∧ (∀ i, i ≠ n → t.acc i = s.acc i) ∧
          t = { s with strands := t.strands, tiles := t.tiles, dir := t.dir } ∧
          (∀ j, j ≠ s.cur → t.strand j = s.strand j) ∧ (∀ j, j ≠ s.myTile → t.tile j = s.tile j) ∧
          t.tile s.myTile = { s.tile s.myTile with acc := (t.tile s.myTile).acc } ∧
          ∀ p, memGet t.mem p = memGet s.mem p) ∧
      let more := storesLeft s (.acc n.toNat) (cells.map at_)
      (z ≠ 2 → Goes (exec (if w = 64 then .mstF64 n a b mr mc else .mstF32 n a b mr mc) s) fun t =>
        t.me = { s.me.retired with pc := s.me.pc + 4, outst := s.me.outst ++ more } ∧
        WroteAll s.cur z (cells.map fun x => ((at_ x).toNat, accElem (s.acc n) w x.1 x.2)) s t) ∧
      (z = 2 → Goes (exec (.mstBf16 n a b mr mc) s) fun t =>
        (∀ x ∈ cells, (t.mask 7).getLsbD (64 * x.1 + x.2) = (cut x).sat) ∧
        (∀ e, (e / 64, e % 64) ∉ cells → (t.mask 7).getLsbD e = (s.mask 7).getLsbD e) ∧
        (∀ m, m ≠ 7 → t.mask m = s.mask m) ∧
        t.me = { s.me.retired with m := t.me.m, pc := s.me.pc + 4, outst := s.me.outst ++ more,
                                   vflags := cells.foldl (fun f x => f ||| (cut x).flags) s.me.vflags } ∧
        WroteAll s.cur 2 (cells.map fun x => ((at_ x).toNat, (cut x).code)) s t)

/-! ## Synchronisation -/

/-- A fence at a scope that holds the issuing tile retires once the strand's earlier element accesses have been performed
and its writes' triggers are enqueued; until then FENCE and FENCE.REL wait, and nothing changes. FENCE.ACQ, whose loads have
been performed, and FENCE.I retire at once (R209, R236, R355). ENGWAIT retires when no engine command of the task is under
way, and otherwise stalls, with nothing changed but the mark that the strand is in it (R211). -/
def Obligations.FencesAndEngineWait : Prop :=
  (∀ (s : State) (k : BitVec 4),
     let inside := (s.me.scopes.getD k.toNat Scope.empty).hasTile s.myTile s.myTile = true
     let done (i : Instr) : Prop := Goes (exec i s) fun t => RetiresTo (s.me.pc + 4) s t ∧ OnlyStrand s.cur s t
     (inside → done (.fenceAcq k)) ∧ (inside → Settled s → done (.fence k) ∧ done (.fenceRel k)) ∧
     (inside → ¬Settled s → exec (.fence k) s = .next s ∧ exec (.fenceRel k) s = .next s) ∧
     Goes (exec .fenceI s) fun t => RetiresTo (s.me.pc + 4) s t ∧ OnlyStrand s.cur s t) ∧
  (∀ s : State,
     ((∀ e ∈ s.cmds, e.2.task ≠ s.me.taskId) → Goes (exec .engwait s) fun t =>
       RetiresTo (s.me.pc + 4) s t ∧ OnlyStrand s.cur s t) ∧
     ((∃ e ∈ s.cmds, e.2.task = s.me.taskId) → Goes (exec .engwait s) fun t =>
       t.me = { s.me with engwait := true } ∧ OnlyStrand s.cur s t))

/-- WAITA reads the doubleword at g_a once: it retires when the condition of its row holds of it and g_b, otherwise the
strand sleeps on the word's line, its timeout counted from its issue, at which it may have waited for its first reading. A sleeper that a write has woken reads again: it retires, or sleeps on. One whose timeout
g_c has passed retires (R63, R210). A write to the line on which a strand sleeps wakes it, and takes another strand's load
reservation on that line; writes elsewhere leave both alone (R63, R207). -/
def Obligations.WaitsAndWakes : Prop :=
  (∀ (s : State) (c : WCond) (a b x : Reg),
     let va := s.readG a
     let now (k : Nat) : Nat := (s.die (dieOfStrand k)).cycles / 1000
     let word (v : Word) : Word := BitVec.ofNat 64 (leNat (memGetBytes s.mem v.toNat 8))
     let holds (c : WCond) (v w : Word) : Prop := match c with
       | .eq => v = w | .ne => v ≠ w | .geu => w.toNat ≤ v.toNat | .ltu => v.toNat < w.toNat
     (PlainAt s va 8 → ∀ p ∈ [(Instr.waita c a b x, false), (Instr.waitaAq c a b x, true)],
       (holds c (word va) (s.readG b) → Goes (exec p.1 s) fun t =>
         RetiresTo (s.me.pc + 4) s t ∧ OnlyStrandAndLine s.cur va.toNat s t) ∧
       (¬ holds c (word va) (s.readG b) → Goes (exec p.1 s) fun t =>
         t.me = { s.me with run := .sleeping c p.2 va (s.readG b) (s.readG x) (s.me.begun.getD (now s.cur)) (lineOf va.toNat) false,
                            begun := none } ∧
         OnlyStrandAndLine s.cur va.toNat s t)) ∧
     ∀ (k : Nat) (aq woken : Bool) (va v tmo : Word) (since line : Nat),
       (s.strand k).run = .sleeping c aq va v tmo since line woken → PlainAt { s with cur := k } va 8 →
       let back (t : State) : Prop :=
         t.strand k = { (s.strand k).retired with run := .running, pc := (s.strand k).pc + 4 } ∧
         OnlyStrandAndLine k va.toNat s t
       (woken = true → holds c (word va) v → Goes (exec (.waitaWake k) s) back) ∧
       (woken = true → ¬ holds c (word va) v → Goes (exec (.waitaWake k) s) fun t =>
         t.strand k = { s.strand k with run := .sleeping c aq va v tmo since (lineOf va.toNat) false } ∧
         OnlyStrandAndLine k va.toNat s t) ∧
       (tmo ≠ 0 → since + tmo.toNat ≤ now k → Goes (exec (.waitaTimeout k) s) back)) ∧
  (∀ (s : State) (who : Option Asker) (k : Nat) (key : Nat) (bs : List Byte), bs ≠ [] →
     let hit (l : Nat) : Prop := lineOf key ≤ l ∧ l ≤ lineOf (key + bs.length - 1)
     let t := s.store who key bs
     (∀ c aq a v tmo since line woken, (s.strand k).run = .sleeping c aq a v tmo since line woken →
       (hit line → (t.strand k).run = .sleeping c aq a v tmo since line true) ∧
       (¬ hit line → (t.strand k).run = (s.strand k).run)) ∧
     (∀ r, (s.strand k).resv = some r →
       (who ≠ some (.strand k) → hit (lineOf r.pa) → (t.strand k).resv = none) ∧
       (who = some (.strand k) ∨ ¬ hit (lineOf r.pa) → (t.strand k).resv = some r)) ∧
     (t.strand k).g = (s.strand k).g ∧ (t.strand k).pc = (s.strand k).pc)

/-- The events that end a strand's outstanding accesses: the oldest store is acknowledged, the oldest train is acknowledged,
an error reaches an element of one of them as a deferred trap, which is counted: poison, or a timeout, 100 µs after
it was made, of one whose request leaves the module or its die; an error that none of them can meet changes nothing. The error ends a
train whole, and of another access that element only; the last element's record stays while a write of the strand waits for its
trigger (R181, R189, R355). While a write of the strand waits for its trigger, nothing
is acknowledged. At user level the error of a strand with a vector or accumulator access under way is pending once that is complete
(R172). A reservation goes 4,096 cycles after its LR; the response to the next request is marked lost; and queued vector instructions
complete, of which no VPI bit that was clear is set. Each changes its strand alone, but for the counter (R141, R143, R172,
R181, R207, R209, R355, R389, R412). That POISONUSE is counted at the strand's die (log 52), that every element of a train may
time out (log 98), and the mark by which a response is lost (log 110) are the model's readings. A request of the strand that leaves its die and whose response is lost is held for 100 µs
from the time at which it was made; then it reads 0 into its register, and Remote Timeout (0x19) with its address is pending
as a deferred trap; the mark is used up (R172, R389). A load of the strand whose own response is not the one that is lost, that of a
cell or a stream being it, reads its value at once. -/
def Obligations.OutstandingAccesses : Prop :=
  (∀ (s : State) (k : Nat),
     let x := s.strand k
     let only (f : Strand → Strand) (t : State) : Prop := t.strand k = f x ∧ OnlyStrand k s t
     let train (o : Outst) : Prop := ∃ d, o.kind = .train d
     let noted (x : Strand) (e : BitVec 8 × Word) : Pending :=
       if x.part.isSome ∧ x.pl = false then { x.pend with late := x.pend.late ++ [e] }
       else { x.pend with deferred := x.pend.deferred ++ [e] }
     (s.owesTrigger k = true → exec (.accessPerformed k) s = .next s ∧ exec (.trainAck k) s = .next s) ∧
     (∀ a o b, s.owesTrigger k = false → x.outst = a ++ o :: b → ¬train o → (∀ p ∈ a, train p) →
       Goes (exec (.accessPerformed k) s) (only fun x => { x with outst := a ++ b })) ∧
     (∀ a o b, s.owesTrigger k = false → x.outst = a ++ o :: b → train o → (∀ p ∈ a, ¬train p) →
       Goes (exec (.trainAck k) s) (only fun x => { x with outst := a ++ b })) ∧
     (∀ addr poison,
       let meets (o : Outst) (far : Bool) : Prop := poison = true ∨ far = true ∧ o.since + 100_000 ≤ s.clock
       let hit (o : Outst) : Prop := ∃ far, (addr, far) ∈ o.addrs ∧ meets o far
       ((∀ o ∈ x.outst, ¬hit o) → exec (.deferredError k poison addr) s = .next s) ∧
       ∀ a o b l far r left, x.outst = a ++ o :: b → (∀ p ∈ a, ¬hit p) → o.addrs = l ++ (addr, far) :: r → meets o far →
         (∀ f, (addr, f) ∈ l → ¬meets o f) →
         (train o ∨ l ++ r = [] ∧ s.owesTrigger k = false → left = []) →
         (¬train o → l ++ r ≠ [] ∨ s.owesTrigger k = true → left = [{ o with addrs := l ++ r }]) →
         Goes (exec (.deferredError k poison addr) s) fun t =>
           t.strand k = { x with outst := a ++ left ++ b, pend := noted x (if poison then 0x18 else 0x19, addr) } ∧
           (∀ j, j ≠ k → t.strand j = s.strand j) ∧ t = { s with strands := t.strands, mdies := t.mdies } ∧
           (dieOfStrand k < 4 → ∀ c : Counter, (t.mdie (dieOfStrand k)).counters.getD c.index 0 =
             (s.mdie (dieOfStrand k)).counters.getD c.index 0 +
               if c = (if poison then .poisonuse else .rtimeout) then 1 else 0)) ∧
     (∀ r, x.resv = some r → r.since + 4096 ≤ (s.die (dieOfStrand k)).cycles / 1000 →
       Goes (exec (.lrReservationExpire k) s) (only fun x => { x with resv := none })) ∧
     (∀ p, Goes (exec (.remoteTimeout k p) s) (only fun x => { x with lost := some (p, none) })) ∧
     Goes (exec (.vectorQueueAdvance k) s) fun t =>
       (∃ m, t.strand k = { x with vpi := x.vpi &&& m }) ∧ (∀ j, j ≠ k → t.strand j = s.strand j) ∧
       t = { s with strands := t.strands, tick := s.tick + 1 }) ∧
  (∀ (s : State) (d a : Reg) (disp : BitVec 16) (p : Bool),
     let va := s.readG a + disp.signExtend 64
     PlainAt { s with strands := s.strands.put s.cur { s.me with lost := none } } va 8 →
     (va.toNat / 128) % 12 / 3 ≠ dieOfStrand s.cur →
     let own : Asker := .strand s.cur
     (s.me.lost = some (p, none) → Goes (exec (.ld d a disp) s) fun t =>
       t.me = { s.me with lost := some (p, some (own, s.clock)) } ∧ OnlyStrand s.cur s t) ∧
     (∀ who made, who ≠ own → s.me.lost = some (p, some (who, made)) → Goes (exec (.ld d a disp) s) fun t =>
       SetsG d (wordAt s va) s t ∧ OnlyStrandAndLine s.cur va.toNat s t) ∧
     ∀ made, s.me.lost = some (p, some (own, made)) →
     (s.clock < made + 100_000 → exec (.ld d a disp) s = .next s) ∧
     (made + 100_000 ≤ s.clock → s.me.part = none → Goes (exec (.ld d a disp) s) fun t =>
       t.readG d = 0 ∧ (∀ r, r ≠ d → t.readG r = s.readG r) ∧
       t.me = { { s.me with lost := none, pend := { s.me.pend with deferred := s.me.pend.deferred ++ [(0x19, va)] } }.retired with
         g := t.me.g, pc := s.me.pc + 4 } ∧
       t = { s with strands := t.strands, mdies := t.mdies } ∧ ∀ j, j ≠ s.cur → t.strand j = s.strand j))

/-! ## System instructions, traps and engines -/

/-- A CSR instruction of a register that the strand's level may access gives g_d the old value. CSRR writes nothing; CSRW,
CSRS and CSRC give every writable field its bits of g_a, old OR g_a, or old AND NOT g_a, and leave every other field as it
was (R232, R233, R234, R235). -/
def Obligations.CsrAccess : Prop :=
  ∀ (s : State) (d a : Reg) (n : BitVec 12) (old : Word), s.readCsr s.cur n.toNat = some old →
    (field n 10 2 = 2 → s.me.pl = true) →
    let g := s.readG a
    let x (t : State) : Option Word := t.readCsr t.cur n.toNat
    let bits (lo len : Nat) : Word := BitVec.ofNat 64 ((2 ^ len - 1) * 2 ^ lo)
    let low (v : Word) (len : Nat) : Nat := v.toNat % 2 ^ len
    let gives (v : Word) (t : State) : Prop :=
      t.readG d = (if d = 0 then 0 else v) ∧ (∀ r, r ≠ d → t.readG r = s.readG r) ∧ t.me.pc = s.me.pc + 4
    (Goes (exec (.csrr d n) s) fun t => gives old t ∧ OnlyStrand s.cur s t ∧
      t.me = { s.me.retired with g := t.me.g, pc := s.me.pc + 4, vpi := t.me.vpi }) ∧
    ∀ p ∈ ([(.csrw d a n, g), (.csrs d a n, old ||| g), (.csrc d a n, old &&& ~~~g)] : List (Instr × Word)),
      Goes (exec p.1 s) fun t => gives old t ∧ t = { s with strands := t.strands, tiles := t.tiles } ∧
        (∀ j, j ≠ s.cur → t.strand j = s.strand j) ∧
        let new := p.2
        let r := n.toNat
        (r = 0x000 → x t = some (old &&& bits 8 3 ||| if low new 3 < 6 then new &&& 7 else old &&& 7)) ∧
        (r = 0x001 → x t = some (new &&& 0x13F)) ∧
        (r = 0x006 → x t = some (if s.me.pl then old &&& 0x100 ||| new &&& 0x9A3F else old &&& ~~~(0x3F : Word) ||| new &&& 0x3F)) ∧
        (r = 0x008 → x t = some (old &&& ~~~(new &&& 0x3F_003F))) ∧
        (r ∈ [0x009, 0x00A, 0x801, 0x804, 0x805, 0x806] → x t = some new) ∧
        (r = 0x800 ∨ r = 0x803 → x t = some (new &&& bits 2 55)) ∧
        (r = 0x802 → x t = some (new &&& (bits 62 2 ||| bits 0 8))) ∧ (r = 0x807 → x t = some (new &&& bits 0 6)) ∧
        (r = 0x808 → x t = some (new &&& bits 0 57)) ∧ (r = 0x810 → x t = some (new &&& bits 12 40)) ∧
        (r = 0x811 → x t = some (if low new 16 = 0xFFFF then old else new &&& bits 0 16)) ∧
        (0x100 ≤ r → r < 0x200 → r % 16 < 10 → x t = some new) ∧
        (0x100 ≤ r → r < 0x200 → r % 16 = 10 →
          x t = some (new &&& bits 8 2 ||| if low new 3 < 5 then new &&& 7 else old &&& 7)) ∧
        (r ∈ [0x002, 0x003, 0x005, 0x007, 0x00B, 0x00C, 0x00D, 0x00E, 0x812] → x t = some old)

/-- Trap entry of a strand with TA = 0 saves the pc, or the trap's own, in EPC, the level and the single-step bit in PPL and
PSS, and the cause and its fields; it sets PL and TA, clears SS, loses the reservation, and goes on at TVEC with every other
register as it was (R238). A register that a trapped load has loaded in part stays busy in VPI, in a field of the model's own (log
29), and a lost response that the instruction or its fetch awaited is that of a later request (log 110). -/
def Obligations.TrapEntry : Prop :=
  ∀ (s : State) (k : Nat) (t0 : Trap), (s.strand k).ta = false →
    let x := s.strand k
    let y := (s.enterTrapOf k t0).strand k
    OnlyStrand k s (s.enterTrapOf k t0) ∧
    y.epc = t0.epc.getD x.pc ∧ y.cause = t0.cause ∧ y.trec = t0.addr ∧
    y.def_ = t0.deferred ∧ y.stepped = t0.stepped ∧ y.tlg = t0.tlg ∧ y.trow = t0.row ∧ y.teng = t0.eng ∧
    y.ppl = x.pl ∧ y.pss = x.ss ∧ y.pl = true ∧ y.ss = false ∧ y.ta = true ∧ y.resv = none ∧ y.pc = x.tvec ∧
    y = { x with run := .running, def_ := y.def_, stepped := y.stepped, cause := y.cause, epc := y.epc, trec := y.trec,
                 tlg := y.tlg, trow := y.trow, teng := y.teng, ppl := x.pl, pss := x.ss, pl := true, ss := false, ta := true,
                 resv := none, vpi := 0, resume := false, asked := [], walks := [], kept := [], part := none,
                 partly := x.partly ||| t0.busy, begun := none, lost := x.lost.map fun l => (l.1, l.2.filter fun r => match r.1 with
                   | .strand _ | .fetch _ => false
                   | _ => true),
                 engwait := false, pc := x.tvec }

/-- An illegal word takes Illegal Instruction (0x01) with EPC at it and the word, zero-extended, in the address field; a
fetch beyond the 52-bit physical addresses with translation off takes Fetch Page Fault (0x06) with its address. Nothing else
changes (R109, R133, R363). BRK takes Breakpoint (0x14) with EPC at itself, SYSCALL takes System Call (0x16) with EPC at the
next instruction; the code is in the address field (R238, R242). At user level ERET, TABORT, the TLBI forms, FLUSH.L1,
FLUSH.L2 and every access of a supervisor register take trap 0x02 with address field 0, which for a register access is
the model's reading (log 11), and nothing else changes (R110, R231, R241, R243). -/
def Obligations.InstructionTraps : Prop :=
  (∀ (s : State) (w : IWord), s.me.ta = false →
     (Goes (exec (.illegalInstruction w) s) fun t =>
       TakesTrap (Trap.sync 0x01 (w.setWidth 64)) s t ∧ OnlyStrand s.cur s t) ∧
     (s.me.root = 0 → 2 ^ 52 ≤ s.me.pc.toNat → Goes (exec .fetchPageFault s) fun t =>
       TakesTrap (Trap.sync 0x06 s.me.pc) s t ∧ OnlyStrand s.cur s t)) ∧
  (∀ (s : State) (code : BitVec 12), s.me.ta = false →
     (Goes (exec (.brk code) s) fun t => TakesTrap (Trap.sync 0x14 (code.setWidth 64)) s t ∧ OnlyStrand s.cur s t) ∧
     Goes (exec (.syscall code) s) fun t =>
       TakesTrap { Trap.sync 0x16 (code.setWidth 64) with epc := some (s.me.pc + 4) } s t ∧ OnlyStrand s.cur s t) ∧
  (∀ (s : State) (d a : Reg) (n : BitVec 12), s.me.pl = false → s.me.ta = false →
     (s.readCsr s.cur n.toNat).isSome → field n 10 2 = 2 →
     ∀ i ∈ ([.eret, .tabort a, .tlbiAll, .tlbiAs a, .tlbiVa d a, .tlbiVaall a, .flushL1, .flushL2, .csrr d n, .csrw d a n,
         .csrs d a n, .csrc d a n] : List Instr),
       Goes (exec i s) fun t => TakesTrap (Trap.sync 0x02 0) s t ∧ OnlyStrand s.cur s t)

/-- A trap of a strand with TA = 1 whose task has neither a gang nor a completion word, and which holds no stream and no
fabric load, ends the task: the strand is Free, its lane groups and accumulators are released, and the double trap is
counted (R240, R242, R412). TABORT at supervisor level, of a task without a gang that holds no stream and no fabric load,
sets bit 62 and the exit code in the completion word, if there is one in ordinary memory, once its earlier accesses are performed
and its writes complete, and frees the strand with its lane groups and accumulators; until then it waits (R242, R290, R355). -/
def Obligations.DoubleTrapAndAbort : Prop :=
  (∀ (s : State) (k : Nat) (t0 : Trap), (s.strand k).ta = true → s.cplAddr k = 0 →
     (∀ tk, (s.strand k).task = some tk → tk.gang = none) → s.ownsActive k = none → s.ownsShadow k = none →
     (∀ p, p < 16 → (s.port (tileOf k) p).st = .unbound ∨ (s.port (tileOf k) p).strand ≠ k) →
     let t := s.enterTrapOf k t0
     (t.strand k).run = .free ∧ (t.strand k).task = none ∧ t.groupsOf k = [] ∧ t.accen k = 0 ∧
     t.mdies = (s.count (dieOfStrand k) .dbltrap).mdies ∧ (∀ j, j ≠ k → t.strand j = s.strand j) ∧
     t = { s with strands := t.strands, tiles := t.tiles, mdies := t.mdies }) ∧
  (∀ (s : State) (a : Reg) (tk : Task), s.me.pl = true → s.me.task = some tk → tk.gang = none →
     s.ownsActive s.cur = none → s.ownsShadow s.cur = none →
     (∀ p, p < 16 → (s.port s.myTile p).st = .unbound ∨ (s.port s.myTile p).strand ≠ s.cur) →
     let cpl := tk.words[2]
     let word := wordAt s cpl ||| 0x4000_0000_0000_0000 ||| BitVec.ofNat 64 ((s.readG a).toNat % 2 ^ 16 * 2 ^ 16)
     (cpl ≠ 0 → ¬Settled s → Goes (exec (.tabort a) s) fun t => t.me = { s.me with vpi := 0 } ∧ OnlyStrand s.cur s t) ∧
     (cpl = 0 ∨ PlainAt s cpl 8 ∧ Settled s → Goes (exec (.tabort a) s) fun t =>
       t.me.run = .free ∧ t.me.task = none ∧ t.me.outst = [] ∧ t.me.resv = none ∧ t.groupsOf s.cur = [] ∧
       t.accen s.cur = 0 ∧ t.me.g = s.me.g ∧
       (if cpl = 0 then t.mem = s.mem else t.mem = memSetBytes s.mem cpl.toNat (leBytes 8 word.toNat)) ∧
       t = { s with strands := t.strands, tiles := t.tiles, mem := t.mem, dir := t.dir, triggers := t.triggers }))

/-- ERET at supervisor level, of a strand without fabric loads or reported port faults, goes on at EPC with the level and
the single-step bit that were saved, TA = 0, and every other register as it was; the instruction at EPC resumes unless the
trap was a deferred one (R241). The errors that an access has met are pending after it, unless the instruction goes on from counters,
a row or a step (R172; log 100). With translation on, what it does to hold the translations of the instruction that resumes, walks
among it, changes no other part of the strand, but for a walk's response that is lost (R171, R198, R389; log 112). -/
def Obligations.ReturnFromTrap : Prop :=
  ∀ s : State, s.me.pl = true → s.ownsActive s.cur = none → s.ownsShadow s.cur = none →
    (∀ x ∈ (s.tile s.myTile).ports, x.reported = false) →
    let midway : Prop := s.me.def_ = false ∧ ((∃ n ∈ s.me.tlg, n ≠ 0) ∨ s.me.trow ≠ 0)
    ∀ pend : Pending, (s.me.ppl = true ∨ midway → pend = s.me.pend) →
    (s.me.ppl = false → ¬midway → pend = { s.me.pend with deferred := s.me.pend.deferred ++ s.me.pend.late, late := [] }) →
    let back : Strand := { s.me.retired with pl := s.me.ppl, ss := s.me.pss, ta := false, pc := s.me.epc, resume := !s.me.def_,
                                             reqAt := if s.me.ppl then s.me.reqAt else none, pend := pend }
    Goes (exec .eret s) fun t =>
      (s.me.root = 0 ∨ s.me.def_ = true → t.me = back ∧ (∀ j, j ≠ s.cur → t.strand j = s.strand j) ∧
        (∀ j, t.tile j = s.tile j) ∧ t = { s with strands := t.strands, tiles := t.tiles }) ∧
      t.me = { back with kept := t.me.kept, walks := t.me.walks, asked := t.me.asked, resv := t.me.resv, run := t.me.run,
                         part := t.me.part, lost := t.me.lost, pend := t.me.pend } ∧
      (s.me.lost = none → t.me.lost = none ∧ t.me.pend = pend)

/-- At supervisor level each TLBI form waits, with nothing changed, until the strand's stores are performed and no access
that was translated through an entry it names is still to be performed: one of a resumed instruction or cell that holds its
translation, one that a cell has fired. Then it retires and leaves in both buffers of every tile exactly the translations
that it does not name: none, those of other ASIDs and global ones, those of other pages or ASIDs, those of other pages
(R243, R369, R371, R372). PAGE_WALK of an address that the page table maps with a leaf that permits the access installs the
leaf's translation in both buffers of the strand's tile: where A is clear the leaf gets it first, and otherwise no byte of
memory changes. A walk that ends at an entry without V or a malformed one, the latter counted, installs nothing (R363, R364,
R365, R366, R367, R368, R369, R370). A load, a store and a fetch with translation on reach the physical address that the one
entry of the first-level buffer that serves them gives, when its leaf permits the access, and take the page fault of their
kind with the address when it does not. The first store through an entry sets D in the entry in memory that was read, and in
the buffers. With no entry in either buffer a load walks: a leaf that permits it and has A set gives the address and is
installed; one that does not, an entry without V and a malformed one give Load Page Fault, and a root outside HBM and the
Cellar gives Access Violation (R362, R363, R364, R365, R366, R367, R368, R369). -/
def Obligations.Translation : Prop :=
  (∀ (s : State) (d a : Reg), s.me.pl = true →
     let asid (r : Reg) : BitVec 16 := (s.readG r).setWidth 16
     let va := (s.readG a).toNat
     let on (e : TlbEnt) : Prop := e.va ≤ va ∧ va < e.va + e.size
     let held (p : TlbEnt → Prop) : Prop :=
       (∃ x ∈ s.strands, ∃ e ∈ x.2.kept, p e.2) ∨ (∃ x ∈ s.kept, p x.2) ∨
       ∃ y ∈ s.tiles, ∃ l, y.2.active = some l ∧ ∃ c ∈ l.cells, ∃ u ∈ c.2.underWay, ∃ e, u.ent = some e ∧ p e
     ∀ p ∈ ([(.tlbiAll, fun _ => True), (.tlbiAs a, fun e => e.glob = false ∧ e.asid = asid a),
         (.tlbiVa d a, fun e => (e.glob = true ∨ e.asid = asid d) ∧ on e), (.tlbiVaall a, on)] :
           List (Instr × (TlbEnt → Prop))),
       (¬Settled s ∨ held p.2 → exec p.1 s = .next s) ∧
       (Settled s → ¬held p.2 → Goes (exec p.1 s) fun t =>
         RetiresTo (s.me.pc + 4) s t ∧ (∀ j, j ≠ s.cur → t.strand j = s.strand j) ∧
         (∀ j e, (e ∈ (t.tile j).tlb ↔ e ∈ (s.tile j).tlb ∧ ¬ p.2 e) ∧
           (e ∈ (t.tile j).l1tlb ↔ e ∈ (s.tile j).l1tlb ∧ ¬ p.2 e)) ∧
         (∀ j, t.tile j = { s.tile j with tlb := (t.tile j).tlb, l1tlb := (t.tile j).l1tlb }) ∧
         t = { s with strands := t.strands, tiles := t.tiles })) ∧
  (∀ (s : State) (k : Nat) (va : Word) (kind : AccKind),
     let x := s.strand k
     let n := tileOf k
     va.toNat < 2 ^ 57 → x.root ≠ 0 → x.lost = none → (∀ w ∈ x.walks, w.1 ≠ va.toNat / 4096) →
     (∀ e a, WalksTo s n 0 va 4 (x.root.toNat * 4096) e a → Permits e kind x.pl →
       let e' := e ||| 0x80
       Goes (exec (.pageWalk k va kind) s) fun t =>
         Takes 4096 (entryFor x.asid va e' a) va (s.tile n).tlb (t.tile n).tlb ∧
         Takes 512 (entryFor x.asid va e' a) va (s.tile n).l1tlb (t.tile n).l1tlb ∧
         t.tile n = { s.tile n with tlb := (t.tile n).tlb, l1tlb := (t.tile n).l1tlb } ∧ (∀ j, j ≠ n → t.tile j = s.tile j) ∧
         (e.getLsbD 7 = true → t = { s with tiles := t.tiles, dir := t.dir }) ∧
         (e.getLsbD 7 = false → t.mem = memSetBytes s.mem a (leBytes 8 e'.toNat) ∧
           t = { s with tiles := t.tiles, dir := t.dir, mem := t.mem, strands := t.strands, triggers := t.triggers })) ∧
     ∀ bad, WalkEnds s n 0 va bad 4 (x.root.toNat * 4096) → Goes (exec (.pageWalk k va kind) s) fun t =>
       (∀ j, t.tile j = s.tile j) ∧ t.mem = s.mem ∧
       t.mdies = (if bad then (s.count (dieOfStrand k) .badpte).mdies else s.mdies)) ∧
  (∀ s : State, s.me.run = .running → s.me.root ≠ 0 → s.me.kept = [] → s.me.lost = none →
     let y := s.tile s.myTile
     let only (va : Word) (e : TlbEnt) : Prop := e ∈ y.l1tlb ∧ Serves e s.me.asid va ∧ ∀ f ∈ y.l1tlb, Serves f s.me.asid va → f = e
     let goal (va : Word) (e : TlbEnt) : Nat := e.pa + (va.toNat - e.va)
     let plain (pa n : Nat) : Prop := pa < 2 ^ 52 ∧ PlainFor s s.myTile 0 (BitVec.ofNat 64 pa) n
     (∀ (d a : Reg) (disp : BitVec 16),
       let va := s.readG a + disp.signExtend 64
       let stops (i : Instr) (c : BitVec 8) : Prop := s.me.ta = false → Goes (exec i s) fun t => TakesTrap (Trap.sync c va) s t
       va.toNat < 2 ^ 57 → va.toNat % 8 = 0 →
       (∀ e, only va e →
         let pa := goal va e
         (¬Permits e.pte .load s.me.pl → stops (.ld d a disp) 0x04) ∧
         (¬Permits e.pte .store s.me.pl → stops (.sd d a disp) 0x05) ∧
         (plain pa 8 →
           (Permits e.pte .load s.me.pl → Goes (exec (.ld d a disp) s) fun t =>
             SetsG d (wordAt s (BitVec.ofNat 64 pa)) s t ∧ OnlyStrandAndLine s.cur pa s t) ∧
           (Permits e.pte .store s.me.pl → e.pte.getLsbD 8 = true → Goes (exec (.sd d a disp) s) fun t =>
             RetiresTo (s.me.pc + 4) s t ∧ Wrote s.cur pa 8 (s.readG d).toNat s t) ∧
           (Permits e.pte .store s.me.pl → e.pte.getLsbD 8 = false → plain e.at_ 8 → pteAt s e.at_ = e.pte →
             let e' : TlbEnt := { e with pte := e.pte ||| 0x100 }
             Goes (exec (.sd d a disp) s) fun t =>
               t.me = { s.me.retired with pc := s.me.pc + 4, resv := t.me.resv } ∧ e' ∈ (t.tile s.myTile).l1tlb ∧ e ∉ (t.tile s.myTile).l1tlb ∧
               t.mem = memSetBytes (memSetBytes s.mem e.at_ (leBytes 8 e'.pte.toNat)) pa (leBytes 8 (s.readG d).toNat) ∧
               t = { s with strands := t.strands, tiles := t.tiles, dir := t.dir, mem := t.mem, triggers := t.triggers }))) ∧
       ((∀ f ∈ y.l1tlb ++ y.tlb, ¬Serves f s.me.asid va) → (∀ w ∈ s.me.walks, w.1 ≠ va.toNat / 4096) →
         let base := s.me.root.toNat * 4096
         (∀ e at_, WalksTo s s.myTile 0 va 4 base e at_ →
           let x := entryFor s.me.asid va e at_
           (¬Permits e .load s.me.pl → stops (.ld d a disp) 0x04) ∧
           (Permits e .load s.me.pl → e.getLsbD 7 = true → plain (goal va x) 8 → Goes (exec (.ld d a disp) s) fun t =>
             SetsG d (wordAt s (BitVec.ofNat 64 (goal va x))) s t ∧
             Takes 4096 x va y.tlb (t.tile s.myTile).tlb ∧ Takes 512 x va y.l1tlb (t.tile s.myTile).l1tlb ∧
             t = { s with strands := t.strands, tiles := t.tiles, dir := t.dir })) ∧
         (∀ bad, WalkEnds s s.myTile 0 va bad 4 base → stops (.ld d a disp) 0x04) ∧
         (0x500_0000_0000 ≤ base → stops (.ld d a disp) 0x07))) ∧
     (s.me.pc.toNat < 2 ^ 57 → ∀ e, only s.me.pc e →
       let pa := goal s.me.pc e
       (Permits e.pte .fetch s.me.pl → plain pa 4 → ∃ t,
         s.fetch = .ok (BitVec.ofNat 32 (leNat (memGetBytes s.mem pa 4))) t ∧ t = { s with dir := t.dir }) ∧
       (¬Permits e.pte .fetch s.me.pl → s.me.ta = false → Goes (exec .fetchPageFault s) fun t =>
         TakesTrap (Trap.sync 0x06 s.me.pc) s t ∧ OnlyStrand s.cur s t)))

/-- An engine instruction with aligned operands and a well-formed descriptor in ordinary memory: the engine that has room
takes the command, captured with the strand's translation and scope, and the instruction retires; otherwise the strand
stalls with it until ENGINE_ACCEPT. Misaligned operands and a malformed descriptor trap (R212, R213, R214). ENGINE_ACCEPT of
a strand that stalls at a command takes it when the engine has room, and otherwise changes nothing (R212). -/
def Obligations.EngineCommands : Prop :=
  (∀ (s : State) (a b x : Reg),
     let desc := s.readG a
     let cpl := s.readG b
     let w := recordAt s desc
     let again := field w[7] 54 2 = 1
     ∀ p ∈ ([(.cpy a b x, .cpy), (.kvgather a b x, .kvgather), (.kvappend a b x, .kvappend), (.fconvD2f a b x, .d2f),
         (.fconvF2d a b x, .f2d), (.sfbag a b x, .sfbag)] : List (Instr × EngKind)),
       let cmd : EngCmd :=
         { id := 0, kind := p.2, strand := s.cur, task := s.me.taskId, desc := desc, cpl := cpl, value := s.readG x, words := w,
           scope := s.me.scopes.getD (field w[6] 0 4) Scope.empty, root := s.me.root, asid := s.me.asid, sup := s.me.pl,
           since := 0, done := if again then field w[7] 0 48 else 0,
           aux := if p.2 = .kvappend ∨ p.2 = .d2f ∧ again then field w[5] 0 32 else 0, begun := false, closed := false,
           told := false, early := [], run := EngRun.start, lines := [] }
       (s.me.ta = false → desc.toNat % 64 ≠ 0 → Goes (exec p.1 s) fun t =>
         TakesTrap (Trap.sync 0x03 desc) s t ∧ OnlyStrand s.cur s t) ∧
       (s.me.ta = false → desc.toNat % 64 = 0 → cpl.toNat % 8 ≠ 0 → Goes (exec p.1 s) fun t =>
         TakesTrap (Trap.sync 0x03 cpl) s t ∧ OnlyStrand s.cur s t) ∧
       (cpl.toNat % 8 = 0 → PlainAt s desc 64 →
         (s.me.ta = false → descriptorOk p.2 w = false → Goes (exec p.1 s) fun t =>
           TakesTrap (Trap.sync 0x1A desc) s t ∧ OnlyStrandAndLine s.cur desc.toNat s t) ∧
         (descriptorOk p.2 w = true → s.canAccept cmd = true → Goes (exec p.1 s) fun t =>
           t.cmds = s.cmds.put s.nextId { cmd with id := s.nextId, since := s.clock } ∧ t.nextId = s.nextId + 1 ∧
           t.me = { s.me.retired with run := .running, pc := s.me.pc + 4 } ∧
           (∀ j, j ≠ s.cur → t.strand j = s.strand j) ∧
           t = { s with strands := t.strands, dir := t.dir, cmds := t.cmds, nextId := t.nextId }) ∧
         (descriptorOk p.2 w = true → s.canAccept cmd = false → Goes (exec p.1 s) fun t =>
           t.me = { s.me with run := .accepting cmd } ∧ OnlyStrandAndLine s.cur desc.toNat s t))) ∧
  (∀ (s : State) (k : Nat) (c : EngCmd), (s.strand k).run = .accepting c →
     (s.canAccept c = true → Goes (exec (.engineAccept k) s) fun t =>
       t.cmds = s.cmds.put s.nextId { c with id := s.nextId, since := s.clock } ∧ t.nextId = s.nextId + 1 ∧
       t.strand k = { (s.strand k).retired with run := .running, pc := (s.strand k).pc + 4 } ∧
       (∀ j, j ≠ k → t.strand j = s.strand j) ∧ t = { s with strands := t.strands, cmds := t.cmds, nextId := t.nextId }) ∧
     (s.canAccept c = false → exec (.engineAccept k) s = .next s))

/-- ENGINE_COMPLETE of a fresh CPY whose source, destination, descriptor and completion word are ordinary memory apart from
one another: the destination holds what the source held, as through a buffer even where the two overlap. While a write of the
command waits for its trigger, the command stays, and nothing past the destination is written. With no watch entry armed and no
such write, descriptor word 7 says DONE = LEN and STATE = 2, at LEN 0 it is as it was (log 102), the completion word holds g_c, no
other byte differs, and the command is gone (R213, R214, R215, R355). ENGINE_FAULT with a timeout before the first unit of a fresh CPY of ordinary memory
whose destination is homed on another die, 100 µs after the command's acceptance at the earliest: word 7 says CAUSE = 0x19,
STATE = 1 and DONE = 0, nothing else is written, the timeout is counted, and the strand that runs the task has an Engine
Fault (0x0D) pending with the descriptor in TENG; its address field is a free value (log 20). Earlier than that nothing
happens. A rank failure before the first bag of an SFBAG with ordinary operands writes CAUSE 0x17, and its Cellar Error
(0x17) has address field 0 (R214, R219, R308, R389). -/
def Obligations.EngineEnds : Prop :=
  (∀ (s : State) (id : Nat) (c : EngCmd), s.cmds.get? id = some c → c.id = id → c.kind = .cpy → c.root = 0 → c.done = 0 →
     c.early = [] → c.begun = false → c.told = false → c.run.seen = [] → field c.words[7] 54 2 = 0 →
     let src := c.words[0].toNat
     let dst := c.words[1].toNat
     let n := field c.words[2] 0 40
     let tl := tileOf c.strand
     let apart (a k b l : Nat) : Prop := a + k ≤ b ∨ b + l ≤ a
     (∀ i, i < n → PlainFor s tl id (BitVec.ofNat 64 (src + i)) 1 ∧ PlainFor s tl id (BitVec.ofNat 64 (dst + i)) 1) →
     src + n < 2 ^ 57 → dst + n < 2 ^ 57 → c.desc.toNat % 64 = 0 → PlainFor s tl id (c.desc + 56) 8 →
     (c.cpl = 0 ∨ PlainFor s tl id c.cpl 8) → apart dst n (c.desc.toNat + 56) 8 →
     (c.cpl ≠ 0 → apart dst n c.cpl.toNat 8 ∧ apart (c.desc.toNat + 56) 8 c.cpl.toNat 8) →
     Goes (exec (.engineComplete id) s) fun t =>
       (∀ i, i < n → memGet t.mem (dst + i) = memGet s.mem (src + i)) ∧
       (s.owes (.command id) = true → (∃ c', t.cmds.get? id = some c') ∧
         ∀ b, b < dst ∨ dst + n ≤ b → memGet t.mem b = memGet s.mem b) ∧
       (s.owes (.command id) = false → (∀ d, d < 4 → ∀ e ∈ (s.die d).watch, e.2.armed = false) →
         (n ≠ 0 → leNat (memGetBytes t.mem (c.desc.toNat + 56) 8) = 2 * 2 ^ 54 + n) ∧
         (c.cpl ≠ 0 → wordAt t c.cpl = c.value) ∧
         (∀ b, b < dst ∨ dst + n ≤ b → n = 0 ∨ b < c.desc.toNat + 56 ∨ c.desc.toNat + 64 ≤ b →
           c.cpl = 0 ∨ b < c.cpl.toNat ∨ c.cpl.toNat + 8 ≤ b → memGet t.mem b = memGet s.mem b) ∧
         t.cmds = s.cmds.drop id)) ∧
  (∀ (s : State) (id k : Nat) (c : EngCmd), s.cmds.get? id = some c → c.id = id → c.root = 0 → c.done = 0 →
     c.early = [] → c.begun = false → c.run.seen = [] → field c.words[7] 54 2 = 0 →
     let tl := tileOf c.strand
     let w := c.words
     let stops (cause : Nat) (t : State) : Prop :=
       t.mem = memSetBytes s.mem (c.desc.toNat + 56) (leBytes 8 (cause * 2 ^ 56 + 2 ^ 54)) ∧ t.cmds = s.cmds.drop id ∧
       (t.strand k).g = (s.strand k).g ∧ (t.strand k).pc = (s.strand k).pc
     PlainFor s tl id (c.desc + 56) 8 → c.desc.toNat % 64 = 0 → s.strandOf c.task = some k →
     (c.kind = .cpy →
       let src := w[0].toNat
       let dst := w[1].toNat
       let n := field w[2] 0 40
       (s.clock < c.since + 100_000 → exec (.engineFault id (some (.timeout 0))) s = .next s) ∧
       (0 < n → src + n < 2 ^ 57 → dst + n < 2 ^ 57 → c.since + 100_000 ≤ s.clock →
         (∀ i, i < n → PlainFor s tl id (BitVec.ofNat 64 (src + i)) 1 ∧ PlainFor s tl id (BitVec.ofNat 64 (dst + i)) 1 ∧
           homeDie (dst + i) ≠ dieOf tl) →
         Goes (exec (.engineFault id (some (.timeout 0))) s) fun t =>
           stops 0x19 t ∧ t.mdies = (s.count (dieOfStrand c.strand) .rtimeout).mdies ∧ t.tick = s.tick + 1 ∧
           ∃ v, (t.strand k).pend.engine = (s.strand k).pend.engine ++ [(0x0D, v, c.desc)])) ∧
     (c.kind = .sfbag → 0 < field w[5] 0 32 → 0 < field w[6] 48 16 → field w[6] 48 16 ≤ 4096 → w[0].toNat % 128 = 0 →
       w[1].toNat % 4 = 0 → w[3].toNat % 4 = 0 → w[4].toNat % 4 = 0 → PlainFor s tl id w[2] 4 →
       leNat (memGetBytes s.mem w[2].toNat 4) = 0 →
       Goes (exec (.engineFault id (some (.rankFailure 0))) s) fun t =>
         stops 0x17 t ∧ (t.strand k).pend.engine = (s.strand k).pend.engine ++ [(0x17, 0, c.desc)]))

/-! ## The Trellis -/

/-- SBIND and SBIND.GEN of a declared, unbound port in its direction, with a well-formed descriptor and a pattern in HBM
that meets no conflicting reservation, bind the port and retire; a reservation of the new binding then covers every line of
the range on each page that the pattern touches, and every entry that was held still is (R222, R333, R393). With translation off the
pages are of 4 KiB, which is the model's reading (log 28). -/
def Obligations.StreamBinding : Prop :=
  ∀ (s : State) (a b : Reg) (gen : Bool) (l : Load),
    let pn := (s.readG a).toNat
    let w := recordAt s (s.readG b)
    let write := w[4].getLsbD 61
    let spans := rowSpans w
    let lo := ((spanRange spans).getD (0, 0)).1
    let hi := ((spanRange spans).getD (0, 0)).2
    let reserved (x : Nat) : Prop := ∃ g ∈ touchedGranules spans,
      max lo (0x1000 * g.1) / 128 ≤ x ∧ 128 * x < min hi (0x1000 * g.1 + 0x1000)
    s.attachLoad = some l → pn < 16 → PlainAt s (s.readG b) 64 → streamOk w gen = true → l.portMask.getLsbD pn = true →
    l.dirMask.getLsbD pn = write → (s.port s.myTile pn).st = .unbound → hi ≤ 0xBF_8000_0000 →
    (∀ d, d < 4 → ∀ e ∈ (s.mdie d).ranges, write = true ∨ e.2.write = true → ∀ x, reserved x → e.2.covers x = false) →
    (∀ e ∈ s.cmds, ∀ x ∈ e.2.lines, ¬reserved x) →
    (∀ d, d < 4 → (s.mdie d).ranges.length + (touchedGranules spans).length ≤ 2048) →
    (∀ e ∈ s.dir, reserved e.1 → e.2.lo = .n ∧ e.2.hi = .n) →
    Goes (exec (if gen then .sbindGen a b else .sbind a b) s) fun t =>
      t.me = { s.me.retired with pc := s.me.pc + 4, resv := t.me.resv } ∧ t.nextId = s.nextId + 1 ∧
      t.port s.myTile pn = { Port.fresh with
        st := .bound, bind := s.nextId, strand := s.cur, root := s.me.root, asid := s.me.asid, sup := s.me.pl, load := l.id,
        gen := (t.port s.myTile pn).gen, descAddr := s.readG b, desc := w, bcast := l.modeMask.getLsbD pn, save := l.save } ∧
      (∀ p, p ≠ pn → t.port s.myTile p = s.port s.myTile p) ∧
      (∀ x, reserved x → ∃ e ∈ (t.mdie (homeDie (128 * x))).ranges, e.2.bind = s.nextId ∧ e.2.covers x = true ∧
        e.2.write = write ∧ e.2.policy = BitVec.ofNat 2 (field w[4] 62 2)) ∧
      (∀ d, ∀ e ∈ (s.mdie d).ranges, e ∈ (t.mdie d).ranges) ∧ ∀ p, memGet t.mem p = memGet s.mem p

/-- SREL of a port that the strand has bound starts its release, and TBAR retires when no port of its mask that the strand
released is still releasing, and waits otherwise (R224, R333). A fault of a port is recorded with STATE 0 in the load's save
area and becomes pending as Fabric Fault (0x0E) with its address; a released port whose stream has ended gives up its
reservation, sends the triggers of its writes once, and is unbound once they are enqueued; a position query raises the binding's entries to the stream's position, line by line, and no
entry of another binding changes (R223, R224, R251, R270, R355, R394). -/
def Obligations.StreamReleaseAndEvents : Prop :=
  (∀ (s : State) (a : Reg),
     let n := (s.readG a).toNat
     let open_ : Prop := ∃ p, p < 16 ∧ (s.readG a).getLsbD p = true ∧ (s.port s.myTile p).st = .releasing ∧
       (s.port s.myTile p).strand = s.cur
     (n < 16 → (s.port s.myTile n).st = .bound → (s.port s.myTile n).strand = s.cur → Goes (exec (.srel a) s) fun t =>
       RetiresTo (s.me.pc + 4) s t ∧ t.port s.myTile n = { s.port s.myTile n with st := .releasing } ∧
       (∀ p, p ≠ n → t.port s.myTile p = s.port s.myTile p) ∧ t = { s with strands := t.strands, tiles := t.tiles } ∧
       ∀ j, j ≠ s.cur → t.strand j = s.strand j) ∧
     (n < 2 ^ 16 → ¬ open_ → Goes (exec (.tbar a) s) fun t => RetiresTo (s.me.pc + 4) s t ∧ OnlyStrand s.cur s t) ∧
     (n < 2 ^ 16 → open_ → exec (.tbar a) s = .next s)) ∧
  (∀ (s : State) (tl p : Nat), p < 16 →
     let x := s.port tl p
     (∀ l cause addr, x.marker = some (cause, addr) → x.st ≠ .unbound → x.reported = false →
       (s.tile tl).load? x.load = some l → l.report = none → (s.strand l.owner).root = 0 → s.sharesSave tl l = false →
       PlainFor s tl 0 l.save 8 → PlainFor s tl 0 (l.save + 8) 8 → l.save.toNat % 64 = 0 →
       Goes (exec (.streamFault tl p) s) fun t =>
         leNat (memGetBytes t.mem l.save.toNat 8) = cause.toNat * 2 ^ 56 + p * 2 ^ 32 + 2 ^ 30 ∧
         leNat (memGetBytes t.mem (l.save.toNat + 8) 8) = addr.toNat % 2 ^ 57 ∧
         (∀ b, b < l.save.toNat ∨ l.save.toNat + 16 ≤ b → memGet t.mem b = memGet s.mem b) ∧
         t.port tl p = { x with reported := true } ∧
         (t.strand x.strand).pend.fabric = (s.strand x.strand).pend.fabric ++ [(0x0E, addr)] ∧
         (t.strand x.strand).g = (s.strand x.strand).g) ∧
     (x.st = .releasing → x.ended = true → Goes (exec (.streamRelease tl p) s) fun t =>
       (t.owes (.stream x.bind) = false → t.port tl p = Port.fresh) ∧
       (t.owes (.stream x.bind) = true → t.port tl p = { x with written := [] }) ∧
       (x.written = [] → t.triggers = s.triggers) ∧ (∀ q, q ≠ p → t.port tl q = s.port tl q) ∧
       (∀ d e, d < 4 → (e ∈ (t.mdie d).ranges ↔ e ∈ (s.mdie d).ranges ∧ e.2.bind ≠ x.bind)) ∧
       t = { s with tiles := t.tiles, mdies := t.mdies, triggers := t.triggers }) ∧
     (∀ a d b, x.st ≠ .unbound → s.queries = a ++ (x.bind, d) :: b → (∀ q ∈ a, ∀ y ∈ s.bindingsAt tl p, y.bind ≠ q.1) →
       Goes (exec (.reservationSplit tl p) s) fun t =>
       let v := x.position / 128 * 128
       t.queries = a ++ b ∧
       (∀ d e, d < 4 → e.2.bind ≠ x.bind → (e ∈ (t.mdie d).ranges ↔ e ∈ (s.mdie d).ranges)) ∧
       (∀ d e, d < 4 → e ∈ (t.mdie d).ranges → e.2.bind = x.bind → ∃ o, (e.1, o) ∈ (s.mdie d).ranges ∧
         e.2.vlo + 128 * e.2.nlines = o.vlo + 128 * o.nlines ∧ o.vlo ≤ e.2.vlo ∧ e.2.plo - e.2.vlo = o.plo - o.vlo ∧
         (o.vlo % 128 = 0 → v ≤ e.2.vlo ∨ e.2.nlines = 0) ∧ e.2 = { o with vlo := e.2.vlo, plo := e.2.plo, nlines := e.2.nlines, splits := e.2.splits }) ∧
       t = { s with queries := t.queries, mdies := t.mdies }))

/-- TLOAD gives g_b = 0 and does nothing else when another strand owns a load of the Trellis. Otherwise it reads the image
at g_a from ordinary memory: one that passes the checks of R255 and R344 becomes the shadow load and g_b = 1; one that does
not takes Config Format (0x1C) with g_a (R225, R255, R340, R344). Where a load of another tile names the same save area under the same
page table, free values stand in their records, and no register, tile or strand differs from that (R343; log 96). TSWAP of a strand whose active load, if any, has drained,
performed every access and left no token, and TSWAP_PROCEED of a strand that waits in it, make the shadow plane active at
once and keep the flags and the error end-of-stream of the load that ends; while the load has not drained, or an access that
its cells have fired is still to be performed, the strand waits (R93, R226, R235, R268, R269, R289). -/
def Obligations.FabricLoads : Prop :=
  (∀ (s : State) (a b : Reg),
     let y := s.tile s.myTile
     let va := s.readG a
     let total := field (wordAt s (va + 56)) 0 32
     let img : Image := { bits := leNat (memGetBytes s.mem va.toNat (8 * ((total + 7) / 8))), total := total }
     let others : Prop := (∃ l, y.active = some l ∧ l.owner ≠ s.cur) ∨ ∃ l, y.shadow = some l ∧ l.owner ≠ s.cur
     (others → Goes (exec (.tload a b) s) fun t => SetsG b 0 s t ∧ OnlyStrand s.cur s t) ∧
     (¬ others → (∀ i, i < max 8 ((total + 7) / 8) → PlainAt s (va + BitVec.ofNat 64 (8 * i)) 8) →
       va.toNat + 8 * ((total + 7) / 8) < 2 ^ 64 →
       (80 ≤ total → img.ok = true → Goes (exec (.tload a b) s) fun t =>
         SetsG b 1 s t ∧ t.nextId = s.nextId + 1 ∧
         t.tile s.myTile = { y with shadow := some (img.load s.nextId s.cur va) } ∧ (∀ j, j ≠ s.myTile → t.tile j = s.tile j) ∧
         ((∀ e ∈ s.tiles, e.1 ≠ s.myTile → ∀ l, e.2.active = some l ∨ e.2.shadow = some l →
             l.save = (img.load s.nextId s.cur va).save → (s.strand l.owner).root ≠ s.me.root) →
           t = { s with strands := t.strands, tiles := t.tiles, dir := t.dir, nextId := t.nextId }) ∧
         t = { s with strands := t.strands, tiles := t.tiles, dir := t.dir, nextId := t.nextId, mem := t.mem, tick := t.tick }) ∧
       (s.me.ta = false → total < 80 ∨ img.ok = false → Goes (exec (.tload a b) s) fun t =>
         TakesTrap (Trap.sync 0x1C va) s t ∧ t = { s with strands := t.strands, dir := t.dir }))) ∧
  (∀ (s : State) (k : Nat) (i : Instr),
     (i = .tswap ∧ k = s.cur ∧ (s.strand k).run = .running) ∨ (i = .tswapProceed k ∧ (s.strand k).run = .swapping) →
     let y := s.tile (tileOf k)
     let old := s.ownsActive k
     let x := s.strand k
     (old ≠ none ∨ s.ownsShadow k ≠ none) →
     ((∀ l, old = some l → l.drained = true ∧ l.performed = true ∧ l.strays = []) →
       (∀ l, s.ownsShadow k = some l → l.spillable = []) → Goes (exec i s) fun t =>
         t.tile (tileOf k) = { y with
           active := s.ownsShadow k, shadow := if s.ownsShadow k = none then y.shadow else none } ∧
         t.strand k = { x.retired with
           run := .running, pc := x.pc + 4, rflags := x.rflags ||| (old.map Load.flags).getD 0,
           eeos := x.eeos || (old.map Load.eeos).getD false } ∧
         (∀ j, j ≠ tileOf k → t.tile j = s.tile j) ∧ (∀ j, j ≠ k → t.strand j = s.strand j) ∧
         t = { s with strands := t.strands, tiles := t.tiles }) ∧
     (∀ l, old = some l → l.drained = false ∨ l.performed = false → i = .tswap → Goes (exec i s) fun t =>
       t.strand k = { x with run := .swapping } ∧ OnlyStrand k s t))

/-- STREAM_PUSH of a bound read port with a free entry reads the next elements of its pattern from ordinary memory and
pushes them as one data token, one element to a lane or one to all; past its last element it pushes an end-of-stream token
once (R62, R249). WRITE_PORT_STORE of a bound write port stores the elements of its head data token to ordinary memory, in
order, and takes the token; at an end token the port ends, in error for the tag 6 (R221, R249). -/
def Obligations.StreamsMove : Prop :=
  (∀ (s : State) (tl p : Nat) (l : Load),
     let x := s.port tl p
     let z := elemBytes x.desc
     let left := elemCount x.desc - x.idx
     let n := min (if x.bcast then 1 else 8) left
     let val (i : Nat) : BitVec 32 := BitVec.ofNat 32 (leNat (memGetBytes s.mem (elemAddr x.desc (x.idx + i)).toNat z))
     let token : Token := if left = 0 then { Token.zero with tag := 7 } else
       { vals := Vector.ofFn fun i : Fin 8 => if x.bcast then val 0 else if i.val < n then val i.val else 0, tag := 0 }
     p < 16 → x.st ≠ .unbound → x.dirOut = false → x.ended = false → x.marker = none → x.pack = [] → x.root = 0 →
     (s.strand x.strand).lost = none → s.fabricSaved x.strand = false →
     (s.tile tl).load? x.load = some l → l.frozen = false → s.portRoom tl p = true →
     (∀ i, i < n → PlainFor s tl x.bind (elemAddr x.desc (x.idx + i)) z) → Goes (exec (.streamPush tl p) s) fun t =>
       t.port tl p = { x with idx := x.idx + n, ended := left == 0 } ∧
       (∃ l', (t.tile tl).load? x.load = some l' ∧
         l' = { l with bufs := l.bufs.setIfInBounds p (l.bufs.getD p [] ++ [token]), quiet := 0 }) ∧
       (∀ j, t.strand j = s.strand j) ∧ t = { s with tiles := t.tiles, dir := t.dir, asked := t.asked }) ∧
  (∀ (s : State) (tl p : Nat) (l : Load) (k : Token) (q : List Token),
     let x := s.port tl p
     let z := elemBytes x.desc
     let n := min (if x.bcast then 1 else 8 - x.idx % 8) (elemCount x.desc - x.idx)
     let lane (i : Nat) : Nat := if x.bcast then 0 else (x.idx + i) % 8
     let addr (i : Nat) : Nat := (elemAddr x.desc (x.idx + i)).toNat
     let popped : Load := { l with bufs := l.bufs.setIfInBounds p q, quiet := 0 }
     p < 16 → x.st ≠ .unbound → x.dirOut = true → x.ended = false → x.marker = none → x.root = 0 →
     s.fabricSaved x.strand = false →
     (s.tile tl).load? x.load = some l → l.bufs.getD p [] = k :: q →
     (k.tag.toNat < 6 → x.idx < elemCount x.desc → (s.strand x.strand).lost = none →
       (∀ i, i < n → PlainFor s tl x.bind (elemAddr x.desc (x.idx + i)) z) → Goes (exec (.writePortStore tl p) s) fun t =>
         t.mem = (List.range n).foldl (fun m i => memSetBytes m (addr i) (leBytes z (k.vals.getD (lane i) 0).toNat)) s.mem ∧
         t.port tl p = { x with idx := x.idx + n, written := x.written ++ (List.range n).map fun i => (addr i, z) } ∧
         (t.tile tl).load? x.load = some popped ∧
         (∀ j, t.strand j = (List.range n).foldl
           (fun y i => y.meetsWrite (lineOf (addr i)) (lineOf (addr i + z - 1)) false) (s.strand j)) ∧
         t = { s with strands := t.strands, tiles := t.tiles, dir := t.dir, mem := t.mem, asked := t.asked }) ∧
     (6 ≤ k.tag.toNat → Goes (exec (.writePortStore tl p) s) fun t =>
       t.port tl p = { x with ended := true } ∧
       (t.tile tl).load? x.load =
         some { popped with ends := l.ends.setIfInBounds p (if k.tag = 6 then .eeos else .eos) } ∧
       t = { s with tiles := t.tiles }))

/-- A cycle of a running load with one cell, no route and no spilled token fires the slot that the cell picks: each lane
whose guard holds gets the slot's result in its destination register and its predicate updates, every other lane keeps both,
and the cycle counts as one in which something happened (R253, R256, R257, R259, R273). A cycle of a tile without an active
load, or with a sealed one, changes nothing (R256, R274). CELL_ACCESS_DONE performs the accesses of the oldest fired
operation of a cell, when its words are clean, nothing has come to stand before them and no response is lost: a load's token
holds the words read, a store writes each lane's word, an AMOADD adds each lane's word, lane by lane, and its token holds the
words as they were; each lane that is the first store of its page sets D in the entry first, if the entry is still as it was read, as
it was at the start for every lane unless the translations are held for a resumed slot (R274). The store
is acknowledged, and the token there, once its triggers are enqueued (R261, R262, R287, R355, R368, R391). -/
def Obligations.CellsRun : Prop :=
  (∀ (s : State) (tl n j : Nat) (l : Load) (c : Cell) (x : Slot) (lanes : List Nat),
     (s.tile tl).active = some l → l.sealed = false → l.frozen = false → l.cells = [(n, c)] → l.routes = [] →
     c.pick = some (j, x, lanes) → x.op ≤ 0x24 →
     let r (i : Nat) : Nat × Flags := laneOp x.op (c.source x.sa i) (c.source x.sb i) (c.source x.sc i)
     Goes (exec (.trellisCycle tl []) s) fun t => ∃ l' c', (t.tile tl).active = some l' ∧ l'.cells = [(n, c')] ∧
       l'.quiet = 0 ∧
       (∀ i v, i < 8 → v < 8 → (c'.d.getD i (Vector.replicate 8 0)).getD v 0 =
         if i ∈ lanes ∧ v = x.dst then BitVec.ofNat 32 (r i).1 else (c.d.getD i (Vector.replicate 8 0)).getD v 0) ∧
       (∀ i, i < 8 → c'.p.getD i 0 = if i ∈ lanes then
         predUpdate x.pubKind x.pubPred ((BitVec.ofNat 32 (r i).1).getLsbD 1)
           (predUpdate x.puaKind x.puaPred ((BitVec.ofNat 32 (r i).1).getLsbD 0) (c.p.getD i 0)) else c.p.getD i 0) ∧
       (∀ i, i < 8 → c'.flags.getD i 0 = c.flags.getD i 0 ||| if i ∈ lanes then (r i).2 else 0) ∧
       (∀ v, memGet t.mem v = memGet s.mem v) ∧ ∀ k, t.strand k = s.strand k) ∧
  (∀ (s : State) (tl : Nat) (stall : List Nat), (∀ l, (s.tile tl).active = some l → l.sealed = true) →
     exec (.trellisCycle tl stall) s = .next s) ∧
  (∀ (s : State) (tl n : Nat) (l : Load) (o : CellOp) (rest : List CellOp),
     let c := l.cell n
     let key (i : Nat) : Option Nat := (o.acc.getD i none).map (·.key)
     let token (v : Nat → BitVec 32) (t : State) : Prop := ∀ ch, o.chan = some ch → ch < 4 →
       ∃ l' k, (t.tile tl).active = some l' ∧ ((l'.cell n).outq.getD ch [])[(c.outq.getD ch []).length]? = some k ∧
         k.tag = o.tag ∧ ∀ i, i < 8 → k.vals.getD i 0 = v i
     let word (m : List Host.Cell) (a : Nat) : Nat := leNat (memGetBytes m a 4)
     let dirty (m : List Host.Cell) (i : Nat) : List Host.Cell := match (o.acc.getD i none).bind (·.mark) with
       | some e => if BitVec.ofNat 64 (leNat (memGetBytes m e.at_ 8)) = e.pte
           then memSetBytes m e.at_ (leBytes 8 (e.pte ||| 0x100).toNat) else m
       | none => m
     let put (f : List Host.Cell → Nat → Nat → Nat) (m : List Host.Cell) (i : Nat) : List Host.Cell := match key i with
       | some a => memSetBytes (dirty m i) a (leBytes 4 (f m i a))
       | none => m
     let stored := put fun _ i _ => (o.data.getD i 0).toNat
     let added := put fun m i a => word m a + (o.data.getD i 0).toNat
     let free (a : Nat) : Prop := (∀ w, s.meets 0 a w = none) ∧ s.engineHolds 0 a = false ∧ s.heldHalves a = []
     let keeps (t : State) : Prop := ∀ j, (t.strand j).g = (s.strand j).g ∧ (t.strand j).pc = (s.strand j).pc
     (s.tile tl).active = some l → l.sealed = false → c.ops = o :: rest → o.done = false → o.got = none →
     s.owes (.cell l.id n) = false → (s.strand l.owner).lost = none →
     (∀ i a, i < 8 → key i = some a → s.isPoisoned a 4 = false ∧ free a ∧ s.isFrozen (placeOf tl a) = false) →
     (∀ i a e, i < 8 → o.acc.getD i none = some a → a.mark = some e → o.op ≠ 0x27 ∧ free e.at_ ∧
       (pteAt s e.at_ = e.pte ∨ o.held = true)) →
     (o.op = 0x27 → o.chan ≠ none → Goes (exec (.cellAccessDone tl n) s) fun t =>
       token (fun i => match key i with
         | some a => BitVec.ofNat 32 (word s.mem a)
         | none => 0) t ∧ (∀ v, memGet t.mem v = memGet s.mem v) ∧ ∀ j, t.strand j = s.strand j) ∧
     (o.op = 0x28 → Goes (exec (.cellAccessDone tl n) s) fun t =>
       (∃ l', (t.tile tl).active = some l' ∧
         (l'.cell n).acks = if t.owes (.cell l.id n) then c.acks else c.acks - 1) ∧
       t.mem = (List.range 8).foldl stored s.mem ∧ keeps t) ∧
     (o.op = 0x29 → Goes (exec (.cellAccessDone tl n) s) fun t =>
       (t.owes (.cell l.id n) = false → token (fun i => match key i with
         | some a => BitVec.ofNat 32 (word ((List.range i).foldl added s.mem) a)
         | none => 0) t) ∧ t.mem = (List.range 8).foldl added s.mem ∧ keeps t))

/-- A frozen load that has settled has its record written, with STATE 1 and the cause, into a save area in ordinary memory,
and its owner's trap becomes pending; a load in which nothing has moved for 4,096 cycles and nothing is outstanding freezes
with cause 0x0F, which is counted (R270, R271, R273). -/
def Obligations.FreezesAndDeadlocks : Prop :=
  ∀ (s : State) (tl : Nat) (l : Load), (s.tile tl).active = some l →
    (∀ r, l.report = some r → l.frozen = true → r.written = false → r.slot < 16 → r.unit < 4 → r.chan < 8 → r.cell < 64 →
      r.port < 16 → l.performed = true → s.linksDone tl l = true → (s.tile tl).records = [] → s.sharesSave tl l = false → (s.strand l.owner).root = 0 → l.save.toNat % 4096 = 0 →
      (∀ i, i < 72 → i < 2 ∨ 8 ≤ i → PlainFor s tl 0 (l.save + BitVec.ofNat 64 (8 * i)) 8) →
      Goes (exec (.fabricFreeze tl) s) fun t =>
        leNat (memGetBytes t.mem l.save.toNat 8) = r.cause.toNat * 2 ^ 56 + 2 ^ 54 + r.cell * 2 ^ 48 + r.slot * 2 ^ 44 +
          r.lanes.toNat * 2 ^ 36 + r.port * 2 ^ 32 + r.unit * 2 ^ 30 + r.chan * 2 ^ 27 ∧
        leNat (memGetBytes t.mem (l.save.toNat + 8) 8) = r.addr.toNat % 2 ^ 57 ∧
        (t.tile tl).active = some { l with report := some { r with written := true } } ∧
        (t.strand l.owner).pend.fabric = (s.strand l.owner).pend.fabric ++
          [if r.cause = 0x11 then (0x11, r.addr) else if r.cause = 0x0F then (0x0F, 0) else (0x0E, r.addr)]) ∧
    (4096 ≤ l.quiet → l.drained = false → l.frozen = false → l.report = none →
      (∀ e ∈ l.cells, (∀ o ∈ e.2.ops, o.done = true) ∧ e.2.pick = none) → s.netStill tl l = true →
      s.streamGoesOn tl l = false → s.portMarked tl l = false → Goes (exec (.deadlockDetect tl) s) fun t =>
        (∃ l' r, (t.tile tl).active = some l' ∧ l'.frozen = true ∧ l'.report = some r ∧ r.cause = 0x0F ∧ r.unit = 3) ∧
        t.mdies = (s.count (dieOf tl) .deadlock).mdies ∧ t = { s with tiles := t.tiles, mdies := t.mdies })

/-! ## Tasks -/

/-- TSPAWN and GANG with a well-formed record in ordinary memory, the strand's accesses performed, the record's die past its
bring-up (log 31) and room in its queue, put the record at the queue's end in a slot of its own, with the strand's
translation and the time, and retire. GANG with a count outside 1 to 16 takes Format Error with g_a (R228, R350, R354,
R355). A malformed task record takes Format Error with its address at TSPAWN and GANG, and a misaligned one Misaligned
Access (R228, R349). That of records with one ENQ nanosecond the queue's order is that of one cycle is the model's choice (log
107). GANG.LEAVE of a strand in no gang only retires. Of a member, it ends the membership and drops its
pending Gang Aborts; no other strand changes while no share of the gang is frozen (R229). When no member is left on a strand, the
gang's suspended members come behind the others of their resume queue, which is the model's choice (log 115). -/
def Obligations.TaskCreation : Prop :=
  (∀ (s : State) (a b : Reg), s.cur < 2560 →
     let va := s.readG a
     let n := (s.readG b).toNat
     let w := recordAt s va
     let d := if w[0].getLsbD 61 then field w[3] 56 8 / 40 else dieOfStrand s.cur
     PlainAt s va 64 → recordOk w = true →
     (Settled s → s.cogor.bringup.getLsbD d = false → (s.die d).queue.length < 4096 → (∀ x ∈ s.waiting, x.die ≠ d) →
       ∀ p ∈ ([(.tspawn a, True, 0, 0), (.gang a b, 1 ≤ n ∧ n ≤ 16, 1, n)] : List (Instr × Prop × BitVec 2 × Nat)),
         p.2.1 → Goes (exec p.1 s) fun t => Joins {
             slot := 0, words := w, level := BitVec.ofNat 2 (field w[0] 62 2), origin := p.2.2.1, members := p.2.2.2,
             rcask := none, asid := s.me.asid, root := s.me.root, g2 := 0, enq := s.clock, stamp := s.clock,
             by_ := s.cur } (s.die d).queue (t.die d).queue ∧
           t.die d = { s.die d with queue := (t.die d).queue, used := (t.die d).used } ∧
           RetiresTo (s.me.pc + 4) s t ∧ (∀ j, j ≠ s.cur → t.strand j = s.strand j) ∧ (∀ j, j ≠ d → t.die j = s.die j) ∧
           t = { s with strands := t.strands, dies := t.dies, dir := t.dir }) ∧
     (s.me.ta = false → n = 0 ∨ 16 < n → Goes (exec (.gang a b) s) fun t =>
       TakesTrap (Trap.sync 0x1A va) s t ∧ OnlyStrandAndLine s.cur va.toNat s t)) ∧
  (∀ (s : State) (a b : Reg), s.me.ta = false → ∀ i ∈ [Instr.tspawn a, Instr.gang a b],
     let va := s.readG a
     (va.toNat % 64 ≠ 0 → Goes (exec i s) fun t => TakesTrap (Trap.sync 0x03 va) s t ∧ OnlyStrand s.cur s t) ∧
     (PlainAt s va 64 → recordOk (recordAt s va) = false → Goes (exec i s) fun t =>
       TakesTrap (Trap.sync 0x1A va) s t ∧ OnlyStrandAndLine s.cur va.toNat s t)) ∧
  (∀ s : State,
     ((∀ tk, s.me.task = some tk → tk.gang = none) → Goes (exec .gangLeave s) fun t =>
       RetiresTo (s.me.pc + 4) s t ∧ OnlyStrand s.cur s t) ∧
     ∀ tk g, s.me.task = some tk → tk.gang = some g → (∀ f ∈ s.frozen, f.gang ≠ g.id) → Goes (exec .gangLeave s) fun t =>
       let of_ (r : ResumeEnt) : Bool := r.ctxs.any fun c => c.gang.any fun h => h.id == g.id
       t.me = { s.me.retired with pc := s.me.pc + 4, task := some { tk with gang := none },
                                  pend := { s.me.retired.pend with gangAbort := [] } } ∧
       (∀ j, j ≠ s.cur → t.strand j = s.strand j) ∧ t = { s with strands := t.strands, dies := t.dies } ∧
       ∀ d, t.die d = { s.die d with resumeq := (t.die d).resumeq } ∧
         ((∃ e ∈ t.strands, e.2.inGang g.id = true) → (t.die d).resumeq = (s.die d).resumeq) ∧
         ((∀ e ∈ t.strands, e.2.inGang g.id = false) → (t.die d).resumeq =
           ((s.die d).resumeq.filter fun r => !of_ r) ++ (s.die d).resumeq.filter of_))

/-- WATCH.ARM, WATCH.DISARM and WATCH.UNBIND change their entry of the issuing die as R230 says and retire; WATCH.BIND of an
entry with nothing latched replaces its descriptor, with a range in HBM of the strand's partition as its translation. An
index of 1,024 or more, or at user level an entry of another ASID, takes Access Violation with g_a (R29, R230, R351, R352).
-/
def Obligations.WatchEntries : Prop :=
  ∀ (s : State) (a b : Reg), s.cur < 2560 →
    let n := (s.readG a).toNat
    let d := dieOfStrand s.cur
    let e := (s.die d).watch.find WatchEnt.reset n
    let mine := n < 1024 ∧ (s.me.pl = true ∨ e.asid = 0xFFFF ∨ e.asid = s.me.asid)
    let sets (t : State) (x : WatchEnt) : Prop :=
      RetiresTo (s.me.pc + 4) s t ∧ (t.die d).watch.find WatchEnt.reset n = x ∧
      (∀ m, m ≠ n → (t.die d).watch.find WatchEnt.reset m = (s.die d).watch.find WatchEnt.reset m) ∧
      (∀ j, j ≠ d → t.die j = s.die j) ∧ (∀ j, j ≠ s.cur → t.strand j = s.strand j) ∧
      t = { s with strands := t.strands, dies := t.dies, dir := t.dir }
    (mine → ∀ p ∈ ([(.watchArm a, { e with armed := true }), (.watchDisarm a, { e with armed := false, latched := none }),
        (.watchUnbind a, { e with bound := false })] : List (Instr × WatchEnt)),
      Goes (exec p.1 s) fun t => sets t p.2) ∧
    (mine → PlainAt s (s.readG b) 64 →
      let w := recordAt s (s.readG b)
      let size := field w[1] 32 32 * 128
      e.latched = none → watchOk w = true → w[0].toNat + size ≤ 0xBF_8000_0000 →
      (∀ i, i < size → s.samePart (dieOf s.myTile) (.hbm (w[0].toNat + i)) = true) → Goes (exec (.watchBind a b) s) fun t =>
        sets t { e with desc := w, armed := w[1].getLsbD 9, bound := true, asid := s.me.asid,
                        segs := [(w[0].toNat, w[0].toNat, size)], root := s.me.root }) ∧
    (¬ mine → s.me.ta = false → ∀ i ∈ [Instr.watchArm a, .watchDisarm a, .watchUnbind a, .watchBind a b],
      Goes (exec i s) fun t => TakesTrap (Trap.sync 0x07 (s.readG a)) s t ∧ OnlyStrand s.cur s t)

/-- END of a task outside a gang and without streams, whose accesses are performed, whose writes are complete and whose load, if any,
has drained with all its accesses performed, and END_PROCEED of a strand that waits there: the completion word, if there is one, gets bit 63,
EEOS, the exit value and the sticky flags; each successor counter that is not at 0 goes down by one, in order; the strand is
Free and holds no lane group, accumulator or load. Until then the strand waits in END. One that is resumed at a decrement,
or waits at one, goes on with that decrement (R36, R38, R39, R40, R241, R289, R355); with TROW 5 to 63, at the last one: the model's
reading (log 94). -/
def Obligations.TasksEnd : Prop :=
  ∀ (s : State) (k st : Nat) (exit : Word) (a : Reg) (i : Instr) (tk : Task),
    (i = .endTask a ∧ k = s.cur ∧ exit = s.readG a ∧
        st = if s.me.resume = true ∧ s.me.trow ≠ 0 then 1 + min s.me.trow.toNat 4 else 0) ∨
      (i = .endProceed k ∧ (s.strand k).run = .ending exit st) →
    (s.strand k).task = some tk → tk.gang = none →
    (∀ p, p < 16 → (s.port (tileOf k) p).st = .unbound ∨ (s.port (tileOf k) p).strand ≠ k) →
    let x := s.strand k
    let plain (v : Word) : Prop := v = 0 ∨ PlainAt { s with cur := k } v 8
    let flags := s.vectorFlags k ||| x.fflags ||| s.tstatFlags k ||| x.rflags
    let word : Word := 0x8000_0000_0000_0000 ||| (if s.tstatEeos k then 0x2000_0000_0000_0000 else 0) |||
      BitVec.ofNat 64 (exit.toNat % 2 ^ 16 * 2 ^ 16) ||| flags.setWidth 64
    let num (m : List Host.Cell) (v : Word) : Nat := leNat (memGetBytes m v.toNat 8)
    let done (m : List Host.Cell) : List Host.Cell :=
      if tk.words[2] = 0 ∨ 1 < st then m
      else memSetBytes m tk.words[2].toNat (leBytes 8 ((BitVec.ofNat 64 (num m tk.words[2]) ||| word).toNat))
    let down (m : List Host.Cell) (v : Word) : List Host.Cell :=
      if v = 0 ∨ num m v % 2 ^ 32 = 0 then m else memSetBytes m v.toNat (leBytes 8 (num m v - 1))
    ((st = 0 → x.outst = [] ∧ s.owesTrigger k = false ∧ ∀ l, s.ownsActive k = some l → l.drained = true ∧ l.performed = true) →
      (∀ v ∈ [tk.words[2], tk.words[4], tk.words[5], tk.words[6], tk.words[7]], plain v) → Goes (exec i s) fun t =>
        t.mem = ([tk.words[4], tk.words[5], tk.words[6], tk.words[7]].drop (st - 2)).foldl down (done s.mem) ∧
        (t.strand k).run = .free ∧ (t.strand k).task = none ∧ t.groupsOf k = [] ∧ t.accen k = 0 ∧
        t.ownsActive k = none ∧ t.ownsShadow k = none) ∧
    (st = 0 → (x.outst ≠ [] ∨ s.owesTrigger k = true ∨ ∃ l, s.ownsActive k = some l ∧ (l.drained && l.performed) = false) → i = .endTask a →
      Goes (exec i s) fun t => t.strand k = { x with vpi := 0, run := .ending exit 0 } ∧ OnlyStrand k s t)

/-- DISPATCH_PLACE of a die whose queue holds one record and which has nothing to resume starts the record's task on the
strand that R31 chooses, or its gang on the strands of one cask, at user level with the registers of R236 and R314, and
takes the record from the queue (R26, R31, R236, R314, R348, R357). Queue records move as R355 to R357 say: of the records
that have waited 1 ms at a level other than 0, the one that has been due the longest joins the end of the next higher level;
a gang that alone has waited 100 µs takes a cask; and a free slot takes the first record that waits for the die, triggers
first, and counts it in the watch entry it comes from (R352, R355, R356, R357). That records with one ENQ nanosecond have come in one
cycle is the model's choice (log 107). -/
def Obligations.Dispatchers : Prop :=
  (∀ (s : State) (d : Nat) (r : QRec) (ks : List Nat), d < 4 → (s.cogor.stage = 5 ∨ s.cogor.stage = 6) → (s.die d).queue = [r] →
     (s.die d).resumeq = [] → ks.Nodup →
     (r.members = 0 ∧ ∃ k, s.taskStrand d r.words = some k ∧ ks = [k]) ∨ (r.members ≠ 0 ∧ s.gangPlace d r = some ks) →
     Goes (exec (.dispatchPlace d) s) fun t => (t.die d).queue = [] ∧ (∀ j, j ∉ ks → t.strand j = s.strand j) ∧
       ∀ m k, ks[m]? = some k →
         let y := t.strand k
         y.run = .running ∧ y.pc = BitVec.ofNat 64 (field r.words[0] 0 57) ∧ y.readG 1 = r.words[1] ∧
         y.readG 2 = (if r.members = 0 then r.g2 else BitVec.ofNat 64 m) ∧ y.readG 3 = BitVec.ofNat 64 r.members ∧
         y.readG 4 = BitVec.ofNat 64 (field r.words[3] 0 53 * 16) ∧ (∀ q : Reg, 4 < q.toNat → y.readG q = 0) ∧
         y.pl = false ∧ y.ta = false ∧ y.asid = r.asid ∧ y.root = r.root ∧ y.vl = 0 ∧ y.outst = [] ∧ y.resv = none ∧
         (∀ q, q < 4 → (y.scopes.getD q Scope.empty) = { tiles := 0, peers := false, host := false, rel := BitVec.ofNat 3 (q + 1) }) ∧
         (∃ tk, y.task = some tk ∧ tk.words = r.words ∧ tk.level = r.level ∧ (tk.gang = none ↔ r.members = 0))) ∧
  (∀ (s : State) (d : Nat) (r : QRec), d < 4 →
     let q := (s.die d).queue
     let due (x : QRec) : Prop := x.level ≠ 0 ∧ x.stamp + 1_000_000 ≤ s.clock
     let only (t : State) : Prop := (∀ j, j ≠ d → t.die j = s.die j) ∧
       t.die d = { s.die d with queue := (t.die d).queue } ∧ t = { s with dies := t.dies }
     (∀ pre post, q = pre ++ r :: post → r.slot < 4096 → due r → (∀ x ∈ pre, due x → r.stamp < x.stamp) →
       (∀ x ∈ post, due x → r.stamp ≤ x.stamp) → (∀ x ∈ pre ++ post, x.slot ≠ r.slot) →
       Goes (exec (.agingPromote d r.slot) s) fun t =>
         (t.die d).queue = pre ++ post ++ [{ r with level := r.level - 1, stamp := r.stamp + 1_000_000 }] ∧ only t) ∧
     (∀ c, q = [r] → r.members ≠ 0 → r.rcask = none → r.enq + 100_000 ≤ s.clock → s.reservable d r = some c →
       Goes (exec (.gangReserve d r.slot) s) fun t => (t.die d).queue = [{ r with rcask := some c }] ∧ only t) ∧
     (∀ pre w post, s.waiting = pre ++ w :: post → w.die = d → q.length < 4096 → (∀ e n, w.entry = some (e, n) → e < 4) →
       (∀ x ∈ pre, x.die = d → w.rcd.origin = 2 ∧ x.rcd.origin ≠ 2) →
       (∀ x ∈ post, x.die = d → x.rcd.origin = 2 → w.rcd.origin = 2) → Goes (exec (.queueSlotFree d) s) fun t =>
         t.waiting = pre ++ post ∧ t = { s with dies := t.dies, waiting := t.waiting } ∧
         Joins { w.rcd with enq := s.clock, stamp := s.clock } q (t.die d).queue ∧
         (∀ j, t.die j = { s.die j with queue := (t.die j).queue, used := (t.die j).used, watch := (t.die j).watch }) ∧
         (∀ j, j ≠ d → (t.die j).queue = (s.die j).queue ∧ (t.die j).used = (s.die j).used) ∧
         ∀ j m, (t.die j).watch.find WatchEnt.reset m =
           let e := (s.die j).watch.find WatchEnt.reset m
           if w.entry = some (j, m) then { e with fired := e.fired + 1 } else e))

/-- A trigger that arrives at an armed and bound entry whose range its write touches sends the handler's record, with the
lowest such address in g2, to its queue, which counts it, or where the queue is full to those that wait for a slot; an entry
that is not armed drops it; an unbound one latches the first where it may, and counts the others as lost. It arrives when it
is due, after the earlier triggers of its slice and before those of its die that are due later (R27, R29, R30, R351, R352,
R353, R355). That a ONCE entry is disarmed at the arrival where the queue is full too (log 60), and that records with one ENQ
nanosecond have come in one cycle (log 107), is the model's reading and its choice. -/
def Obligations.TriggersArrive : Prop :=
  ∀ (s : State) (tr : Trigger) (pre post : List Trigger) (va : Nat), s.triggers = pre ++ tr :: post → tr.die < 4 →
    tr.due ≤ s.clock → (∀ u ∈ pre, u.die = tr.die → u.slice ≠ tr.slice) →
    (∀ u ∈ pre ++ post, u.die = tr.die → tr.due ≤ u.due) →
    let e := (s.die tr.die).watch.find WatchEnt.reset tr.entry
    lowestIn e.segs tr.spans = some va →
    let w : Vector Word 8 := #v[e.desc[3], e.desc[4], if e.desc[5] = 0 then 0 else if e.desc[1].getLsbD 10 then
      e.desc[5] + ((BitVec.ofNat 64 va - e.desc[0]) &&& ~~~(7 : Word)) else e.desc[5], e.desc[6], e.desc[7], 0, 0, 0]
    let d := if w[0].getLsbD 61 then field w[3] 56 8 / 40 else tr.die
    let r : QRec := {
      slot := 0, words := w, level := BitVec.ofNat 2 (field w[0] 62 2), origin := 2, members := 0, rcask := none,
      asid := e.asid, root := e.root, g2 := BitVec.ofNat 64 va, enq := s.clock, stamp := s.clock, by_ := s.cur }
    let entry (t : State) : WatchEnt := (t.die tr.die).watch.find WatchEnt.reset tr.entry
    let gone (t : State) : Prop := t.triggers = pre ++ post
    let fired := { e with latched := none, armed := e.armed && !e.desc[1].getLsbD 7 }
    let i := Instr.watchTrigger pre.length
    (e.armed = true → e.bound = true → (s.die d).queue.length < 4096 → (∀ x ∈ s.waiting, x.die ≠ d) → d < 4 →
      Goes (exec i s) fun t => gone t ∧ entry t = { fired with fired := e.fired + 1 } ∧
        Joins r (s.die d).queue (t.die d).queue ∧ t = { s with triggers := t.triggers, dies := t.dies }) ∧
    (e.armed = true → e.bound = true → (4096 ≤ (s.die d).queue.length ∨ ∃ x ∈ s.waiting, x.die = d) →
      Goes (exec i s) fun t => gone t ∧ entry t = fired ∧
        t.waiting = s.waiting ++ [{ die := d, rcd := r, entry := some (tr.die, tr.entry), writer := tr.writer }] ∧
        t = { s with triggers := t.triggers, dies := t.dies, waiting := t.waiting }) ∧
    (e.armed = false → exec i s = .next { s with triggers := pre ++ post }) ∧
    (e.armed = true → e.bound = false → e.desc[1].getLsbD 8 = true → e.latched = none →
      Goes (exec i s) fun t => gone t ∧ entry t = { e with latched := some tr.spans }) ∧
    (e.armed = true → e.bound = false → (e.desc[1].getLsbD 8 = false ∨ e.latched ≠ none) →
      Goes (exec i s) fun t => gone t ∧ entry t = e ∧ (t.die tr.die).dlost = (s.die tr.die).dlost + 1)

/-- A write to PREQ raises a pre-emption request, with the time, for each local strand whose bit is 1 and, for a member, for
its gang, and for no other; one raised while the handler of an earlier one runs is a further one. A request that has not
been delivered for 2 ms is forced and counted (R26, R375, R376). A strand at user level that runs, or waits where causes are
delivered, takes the first of its pending causes in the order deferred errors, engine traps, Trellis causes, Gang Aborts,
Single Step, pre-emption; a step pending beside one of the first four goes with it as STEPPED. Pre-emption is delivered only
if the strand holds no lane group, accumulator or load, or it is forced or a further one, or it ends the wait (the model's reading, log
68). With a vector or accumulator access midway only a forced pre-emption is delivered, where the access waits at a range reservation
with no train unacknowledged, and its counters go into the trap record (log 88); in ENGWAIT an engine trap waits (log 84). TROW of an
instruction that was to resume is kept. With nothing pending, and at supervisor level, nothing happens (R32, R37, R40, R173, R181,
R199, R211, R238, R239, R376). In stage 5, during its bring-up, a die's boot launch queues the record at its physical address with
ORIGIN 3, ASID 0 and translation off, or has it wait for a slot (records of one ENQ nanosecond as of one cycle, log 107); while the
reading of it has to wait no queue changes, and at any other time it does nothing. A write to HVEC reaches TVEC of every
strand of its die and of no other (R355, R359, R400, R401). -/
def Obligations.PreemptionAndLaunch : Prop :=
  (∀ (s : State) (k : Nat),
     (∀ d w bits, d < 4 → w < 10 → Goes (exec (.preq d w bits) s) fun t =>
         let x := s.strand k
         let asked := ∃ b, b < 64 ∧ bits.getLsbD b = true ∧ (k = 640 * d + 64 * w + b ∨
           ∃ tk g, (s.strand (640 * d + 64 * w + b)).task = some tk ∧ tk.gang = some g ∧ x.inGang g.id = true)
         (asked → t.strand k = { x with pend := { x.pend with
           preempt := some (x.pend.preempt.getD (s.clock, false)),
           further := x.pend.further || (x.pl && x.reqAt.isSome) } }) ∧
         (¬ asked → t.strand k = s.strand k) ∧ t = { s with strands := t.strands }) ∧
     (∀ at_ forced, (s.strand k).pend.preempt = some (at_, forced) →
       (forced = false → (s.strand k).task ≠ none → at_ + 2_000_000 ≤ s.clock → Goes (exec (.preemptForce k) s) fun t =>
         t.strand k = { s.strand k with pend := { (s.strand k).pend with preempt := some (at_, true) } } ∧
         t.mdies = (s.count (dieOfStrand k) .fpreempt).mdies ∧ t = { s with strands := t.strands, mdies := t.mdies }) ∧
       (forced = true ∨ (s.strand k).task = none ∨ s.clock < at_ + 2_000_000 → exec (.preemptForce k) s = .next s))) ∧
  (∀ (s : State) (k : Nat),
     let x := s.strand k
     let p := x.pend
     let stalled := match x.run with | .stalled _ _ _ => true | _ => false
     let open_ := match x.run with | .sleeping _ _ _ _ _ _ _ _ | .stalled _ _ _ | .accepting _ | .swapping => true | _ => false
     let stands := x.pl = false ∧ (x.run = .running ∨ open_ = true ∨ ∃ e, x.run = .ending e 0)
     let takes (t0 : Trap) (p' : Pending) (at_ : Option (Nat × Bool × Bool)) : Prop :=
       Goes (exec (.asyncTrap k) s) fun t => t.strand k = { x.trapped t0 with pend := p', reqAt := at_ } ∧ OnlyStrand k s t
     let q := { p with step := false }
     let row : BitVec 6 := if x.resume then x.trow else 0
     (stands → x.ta = false → x.part = none → (x.engwait = false ∨ p.engine = []) →
       (∀ c a r, p.deferred = (c, a) :: r →
         takes { Trap.sync c a with deferred := true, stepped := p.step, row := row } { q with deferred := r } none) ∧
       (p.deferred = [] → ∀ c a e r, p.engine = (c, a, e) :: r →
         takes { Trap.sync c a with eng := e, stepped := p.step, row := row } { q with engine := r } none) ∧
       (p.deferred = [] → p.engine = [] → ∀ c a r, p.fabric = (c, a) :: r →
         takes { Trap.sync c a with stepped := p.step, row := row } { q with fabric := r } none) ∧
       (p.deferred = [] → p.engine = [] → p.fabric = [] → ∀ m r, p.gangAbort = m :: r →
         takes { Trap.sync 0x12 (BitVec.ofNat 64 m) with stepped := p.step, row := row } { q with gangAbort := r } none) ∧
       (p.deferred = [] → p.engine = [] → p.fabric = [] → p.gangAbort = [] →
         (p.step = true → takes (Trap.sync 0x15 0) q none) ∧
         (p.step = false → ∀ at_ forced, p.preempt = some (at_, forced) →
           let now := forced = true ∨ p.further = true ∨ open_ = true ∨
             s.groupsOf k = [] ∧ s.accen k = 0 ∧ s.ownsActive k = none ∧ s.ownsShadow k = none
           (now → takes { Trap.sync 0x13 (if forced then 1 else 0) with row := row } { p with preempt := none, further := false }
             (some (at_, forced, stalled))) ∧
           (¬ now → exec (.asyncTrap k) s = .next s)) ∧
         (p.step = false → p.preempt = none → exec (.asyncTrap k) s = .next s))) ∧
     (stands → x.ta = false → ∀ pt, x.part = some pt →
       let free : Prop := pt.shut = true ∧ ∀ o ∈ x.outst, o.kind.isTrain = false
       (∀ at_, p.preempt = some (at_, true) → free →
         takes { Trap.sync 0x13 1 with stepped := p.step, tlg := pt.tlg, row := pt.row, busy := pt.busy }
           { p with preempt := none, further := false } (some (at_, true, stalled))) ∧
       ((∀ at_, p.preempt ≠ some (at_, true)) ∨ ¬free → exec (.asyncTrap k) s = .next s)) ∧
     (x.part = none → x.engwait = true → p.engine ≠ [] → exec (.asyncTrap k) s = .next s) ∧
     (¬ stands → exec (.asyncTrap k) s = .next s)) ∧
  (∀ (s : State) (d : Nat) (addr : Word), d < 4 →
     (let w : Vector Word 8 := Vector.ofFn fun i : Fin 8 =>
         BitVec.ofNat 64 (leNat (memGetBytes s.mem (addr.toNat + 8 * i.val) 8))
       let q := if w[0].getLsbD 61 then field w[3] 56 8 / 40 else d
       let r : QRec := {
         slot := 0, words := w, level := BitVec.ofNat 2 (field w[0] 62 2), origin := 3, members := 0, rcask := none,
         asid := 0, root := 0, g2 := 0, enq := s.clock, stamp := s.clock, by_ := s.cur }
       let shut : Prop := (∃ e, s.meets 0 addr.toNat false = some e) ∨ s.engineHolds 0 addr.toNat = true ∨
         s.heldHalves addr.toNat ≠ []
       s.cogor.stage = 5 → s.cogor.bringup.getLsbD d = true → addr.toNat % 64 = 0 → addr.toNat < 0xC0_0000_0000 →
       ((∃ e, s.meets 0 addr.toNat false = some e) ∨ s.engineHolds 0 addr.toNat = true → Goes (exec (.bootlr d addr) s) fun t =>
         t.dies = s.dies ∧ t.waiting = s.waiting) ∧
       (recordOk w = true → ¬shut →
       ((s.die q).queue.length < 4096 → (∀ x ∈ s.waiting, x.die ≠ q) → Goes (exec (.bootlr d addr) s) fun t =>
         Joins r (s.die q).queue (t.die q).queue ∧ (∀ j, j ≠ q → t.die j = s.die j) ∧ t = { s with dies := t.dies }) ∧
       (4096 ≤ (s.die q).queue.length ∨ (∃ x ∈ s.waiting, x.die = q) → exec (.bootlr d addr) s = .next
         { s with waiting := s.waiting ++ [{ die := q, rcd := r, entry := none, writer := none }] }))) ∧
     (s.cogor.stage ≠ 5 ∨ s.cogor.bringup.getLsbD d = false → exec (.bootlr d addr) s = .next s) ∧
     Goes (exec (.hvec d addr) s) fun t =>
       (∀ k, (t.strand k).tvec = if dieOfStrand k = d then addr &&& 0x01FF_FFFF_FFFF_FFFC else (s.strand k).tvec) ∧
       (∀ k, t.strand k = { s.strand k with tvec := (t.strand k).tvec }) ∧ (t.die d).hvec = addr &&& 0x01FF_FFFF_FFFF_FFFC ∧
       t = { s with strands := t.strands, dies := t.dies })

/-- A supervisor's store of a page in HBM to SUSPEND leaves its strand suspending, unless the die's resume queue is full;
SUSPEND_SAVE of such a strand outside a gang, with no access outstanding and no fabric load, writes the record, gives up
what the strand holds and queues the record for resumption; and a store of any other address takes Access Violation (R375,
R377, R378, R379, R380, R382). FABRIC_SAVE of a tile whose owner suspends and whose active load has drained with all its
accesses performed, with nothing that the save would wait for, freezes the load and records that its regions are written;
before the drain nothing happens within 2 ms of the request, and after them the load freezes (R381). -/
def Obligations.TasksSuspend : Prop :=
  (∀ (s : State) (k base since : Nat) (fab : Bool) (addr : Word),
     (s.me.run = .running → s.me.pl = true → addr.toNat % 0x1000 = 0 → addr.toNat < 0xC0_0000_0000 →
       (s.die (dieOfStrand s.cur)).resumeq = [] → (∀ e ∈ s.strands, e.2.isSuspending = false) →
       Goes (exec (.suspendStore addr) s) fun t =>
         let from_ := match s.me.reqAt with | some (r, _, _) => r | none => s.clock
         t.me = { s.me.retired with resv := none, run := .suspending addr.toNat from_ false } ∧ OnlyStrand s.cur s t) ∧
     (s.me.run = .running → s.me.pl = true → addr.toNat % 0x1000 = 0 → addr.toNat < 0xC0_0000_0000 →
       (∀ tk, s.me.task = some tk → tk.gang = none) →
       1024 ≤ ((s.die (dieOfStrand s.cur)).resumeq.filter fun r => (r.ctxs.head?.bind (·.gang)).isNone).length →
       exec (.suspendStore addr) s = .next s) ∧
     (s.me.run = .running → s.me.pl = true → s.me.ta = false →
       (addr.toNat % 0x1000 ≠ 0 ∨ 0xC0_0000_0000 ≤ addr.toNat) → Goes (exec (.suspendStore addr) s) fun t =>
         TakesTrap (Trap.sync 0x07 (BitVec.ofNat 64 (0xFF0_0000_0200 + 0x1000_0000 * dieOfStrand s.cur))) s t ∧
         OnlyStrand s.cur s t) ∧
     ∀ tk, (s.strand k).run = .suspending base since fab → (s.strand k).outst = [] → s.owesTrigger k = false →
       (s.strand k).task = some tk →
       tk.gang = none → s.ownsActive k = none → s.ownsShadow k = none → k < 2560 → base % 0x1000 = 0 →
       base + 0x9_0000 ≤ 0xC0_0000_0000 → NothingHeld s →
       (∀ r ∈ (s.die (dieOfStrand k)).resumeq, ∀ c ∈ r.ctxs, c.record ≠ base) →
       Goes (exec (.suspendSave k) s) fun t =>
         (t.strand k).run = .free ∧ (t.strand k).task = none ∧ t.groupsOf k = [] ∧ t.accen k = 0 ∧
         (∃ c, (t.die (dieOfStrand k)).resumeq = (s.die (dieOfStrand k)).resumeq ++
             [{ ctxs := [c], level := tk.level, suspt := s.clock, stamp := s.clock }] ∧ c.record = base ∧ c.task = tk.id) ∧
         leNat (memGetBytes t.mem (base + 0x140) 8) = (s.strand k).epc.toNat ∧
         leNat (memGetBytes t.mem (base + 8) 8) = (s.strand k).root.toNat * 0x1000 ∧
         (∀ j, j < 8 → leNat (memGetBytes t.mem (base + 0x1C0 + 8 * j) 8) = (tk.words.getD j 0).toNat) ∧
         ∀ b, b < base ∨ base + 0x9_0000 ≤ b → memGet t.mem b = memGet s.mem b) ∧
  (∀ (s : State) (tl base since : Nat) (l : Load), (s.tile tl).active = some l →
     (s.strand l.owner).run = .suspending base since false →
     (l.drained = true → l.performed = true → NothingHeld s → Goes (exec (.fabricSave tl) s) fun t =>
       (t.strand l.owner).run = .suspending base since true ∧ (t.tile tl).active = some { l with frozen := true }) ∧
     ((l.drained && l.performed) = false →
       (s.clock < since + 2_000_000 → exec (.fabricSave tl) s = .next s) ∧
       (since + 2_000_000 ≤ s.clock → Goes (exec (.fabricSave tl) s) fun t =>
         (t.tile tl).active = some { l with frozen := true })))

/-- RESUME_PLACE of a die that runs, whose resume queue holds one task alone, restores it on the strand that the rules
choose: it runs at user level at the EPC of its record, of which EPC's bits count, with the record's registers, translation, PENDING causes and those
that have arisen since, and the entry is gone; no byte of memory changes unless a load of another tile has the save area of one of its
loads (R31, R343, R380, R382, R383, R400). -/
def Obligations.TasksResume : Prop :=
  ∀ (s : State) (d k : Nat) (c : SavedCtx) (e : ResumeEnt), d < 4 → (s.cogor.stage = 5 ∨ s.cogor.stage = 6) →
    (s.die d).resumeq = [e] → e.ctxs = [c] → c.gang = none → (s.die d).queue = [] → s.resumeStrand d c = some k →
    NothingHeld s →
    let w (off : Nat) : Word := BitVec.ofNat 64 (leNat (memGetBytes s.mem (c.record + off) 8))
    Goes (exec (.resumePlace d) s) fun t =>
      let y := t.strand k
      (t.die d).resumeq = [] ∧ y.run = .running ∧ y.pc = w 0x140 &&& 0x01FF_FFFF_FFFF_FFFC ∧ y.pl = false ∧ y.ta = false ∧
      (∀ r : Reg, y.readG r = if r = 0 then 0 else w (0x40 + 8 * r.toNat)) ∧ y.asid = BitVec.ofNat 16 (field (w 0) 32 16) ∧
      y.root = BitVec.ofNat 40 (field (w 8) 12 40) ∧ y.vl = field (w 0x160) 0 13 ∧
      (c.pend.deferred = [] → c.pend.late = [] → y.pend.deferred = c.since.deferred) ∧
      (∀ b a r, c.pend.deferred = (b, a) :: r → (w 40).getLsbD b.toNat = true → y.pend.deferred.head? = some (b, w 48)) ∧
      y.pend.gangAbort = (if (w 40).getLsbD 0x12 then c.pend.gangAbort else []) ++ c.since.gangAbort ∧
      y.pend.step = (c.pend.step && (w 40).getLsbD 0x15) ∧ y.pend.preempt = none ∧
      y.rngSeed = w 0x168 ∧ y.rngCtr = w 0x170 ∧
      (∃ tk, y.task = some tk ∧ tk.id = c.task ∧ tk.gang = none ∧ tk.level = e.level) ∧
      (∀ j, j ≠ k → t.strand j = s.strand j) ∧
      ((∀ l, c.active = some l ∨ c.shadow = some l → ∀ x ∈ s.tiles, x.1 ≠ tileOf k → ∀ m,
          x.2.active = some m ∨ x.2.shadow = some m → m.save ≠ l.save) → ∀ b, memGet t.mem b = memGet s.mem b)

/-! ## Boot, Cogor, fleet and CXL -/

/-- Boot goes through its stages as R400 says: stage 1, 3 and 4 go on when they succeed and halt the module otherwise; stage
2 runs slot A, or slot B, with a new alias LMS tree unless the key store is erased, or halts with the verification code of
slot B; stage 4 leaves every byte of the module zero when no dump is kept; RELEASE lets stage 5 go to 6. A cold reset, and a
module reset that no alarm halt forbids, start at stage 1 with what boot flash, fuses and memory hold (R400, R401, R402,
R404, R406). That slot B's code is the ERR where both slots fail, and the code of a header that fails, are the model's reading (log
34). -/
def Obligations.BootStages : Prop :=
  ∀ (s : State) (ok : Bool) (bits : Word),
    let c := s.cogor
    let verdict (img : List Byte) : BitVec 8 := verifyCode img c.svnf
    let halted (e : BitVec 8) (t : State) : Prop := t = { s with cogor := { c with stage := 7, err := e } }
    let runs (img : List Byte) (b : Bool) (t : State) : Prop :=
      t.cogor.stage = 3 ∧ t.cogor.running = img ∧ t.cogor.slotB = b ∧
      (c.erased = false → t.cogor.aliasTree = c.aliasTree + 1 ∧ t.cogor.aliasLeaf = 0) ∧
      t = { s with cogor := t.cogor, tick := t.tick }
    let fresh (t : State) : Prop := t.cogor.stage = 1 ∧ t.cogor.err = 0 ∧ t.cogor.bringup = 0xF ∧ t.strands = [] ∧
      t.tiles = [] ∧ t.cmds = [] ∧ t.dir = [] ∧ t.mem = s.mem ∧ t.cogor.slotA = c.slotA ∧ t.cogor.slotBImg = c.slotBImg ∧
      t.cogor.svnf = c.svnf ∧ t.cogor.erased = c.erased ∧ t.cogor.partcfg = c.partNext ∧ t.cogor.retmap = c.flashRetmap ∧
      (∀ d, (t.die d).queue = [] ∧ (t.die d).hvec = 0) ∧ ∀ d i, (t.mdie d).counters.getD i 0 = 0
    (c.stage = 1 → Goes (exec (.bootStageDone ok) s) fun t =>
      if ok then t = { s with cogor := { c with stage := 2 } } else halted 4 t) ∧
    (c.stage = 2 → Goes (exec (.bootStageDone ok) s) fun t =>
      if verdict c.slotA = 0 then runs c.slotA false t
      else if verdict c.slotBImg = 0 then runs c.slotBImg true t else halted (verdict c.slotBImg) t) ∧
    (c.stage = 3 → Goes (exec (.bootStageDone ok) s) fun t =>
      if ok then t = { s with cogor := { c with stage := 4 } } else halted 3 t) ∧
    (c.stage = 4 → Goes (exec (.bootStageDone ok) s) fun t =>
      if ok then t.cogor = { c with stage := 5 } ∧
        ∀ a, a < 0x4_0000_0000_0000 → s.dumpValid = false ∨ a < 0xBF_8000_0000 → memGet t.mem a = 0
      else halted 3 t) ∧
    (c.stage = 5 → bits.getLsbD 0 = true → Goes (exec (.releaseDies bits) s) fun t =>
      t = { s with cogor := { c with stage := 6, bringup := 0 } }) ∧
    (Goes (exec .coldReset s) fun t => fresh t ∧ t.cogor.alarms = 0) ∧
    (¬ AlarmHalt s → Goes (exec (.moduleReset 1) s) fun t => fresh t ∧ t.cogor.alarms = c.alarms) ∧
    (AlarmHalt s → ∀ b, exec (.moduleReset b) s = .next s)

/-- The mailbox registers: SVNCOMMIT raises the fused version to the running image's; PARTCFG takes a valid layout for the
next reset, its reserved bits as zero; RETIRE starts to drain a tile in service and asks its tasks to give way, and
RETIRE_DONE retires it when its strands are Free; DUMPCLR clears VALID, unless an alarm has halted the module, and asks only for the
half of the header while the host holds it (R391); the host
writes the domain number; an 8-byte write through the BAR0 of a partition's function acts as the register does, and one of
another size not at all (R7, R346, R347, R398, R403, R404, R408, R409, R417, R418); that BAR0 is addressed by unit and offset is the
model's reading (log 40). The attestation requests answer in their
order from stage 5 on: version, capabilities and algorithms, which it names, bring the connection forward; then digests and
certificates come from the identity keys once a DeviceID leaf has certified the alias LMS tree, and challenges and signed
measurements are reports with both alias signatures and the certificate chain, each with a leaf of its own, the first of a
new tree after the last of the old one, unless the flash write of a leaf counter fails; unsigned measurements only give
their blocks. A request out of its order (log 37), and one for the keys of a part that has none (log 80), is an error (R400, R406,
R407). From stage 3 on PLDM takes an image into
the staging area, verifies it by R402, and activates a verified one: slot A goes to slot B and the staged image to slot A,
once a dump that is being written is complete; sensors, whose numbers are the model's choice (log 39), read the counters and the
governor of a die (R411, R412, R413, R419). -/
def Obligations.CogorServices : Prop :=
  (∀ (s : State) (bits : Word),
     let c := s.cogor
     let t0 := field bits 0 10
     let bit0 := bits.getLsbD 0
     let sets (t : State) : Prop := t = { s with cogor := { c with
       partNext := if partitionOk bits then bits &&& 0x0000_FFFF_FFFF_FFFF else c.partNext } }
     (bit0 = true → c.stage = 6 → Goes (exec (.svncommit bits) s) fun t =>
       t = { s with cogor := { c with svnf := max c.svnf (imageSvn c.running) } }) ∧
     (Goes (exec (.partcfg bits) s) sets) ∧
     (bits.toNat < 2 ^ 10 → t0 < 640 → c.draining = none → c.retmap.getLsbD t0 = false → s.gangSuspendedAt (t0 / 4) = false →
       Goes (exec (.retireTile bits) s) fun t =>
         t = { s with cogor := { c with rtile := BitVec.ofNat 10 t0, rstate := 1, draining := some t0 }, strands := t.strands } ∧
         (∀ i, i < 4 → (s.strand (4 * t0 + i)).run ≠ .free → (t.strand (4 * t0 + i)).pend.preempt.isSome = true) ∧
         ∀ k, t.strand k = { s.strand k with pend := { (s.strand k).pend with
           preempt := (t.strand k).pend.preempt, further := (t.strand k).pend.further } }) ∧
     (∀ t1, c.draining = some t1 → (∀ i, i < 4 → (s.strand (4 * t1 + i)).run = .free) → Goes (exec .retireDone s) fun t =>
       t = { s with cogor := { c with rstate := 2, draining := none, retmap := c.retmap ||| (1 <<< t1),
                                      flashRetmap := c.flashRetmap ||| (1 <<< t1) } }) ∧
     (bit0 = true → ¬ AlarmHalt s → s.heldHalves 0xBF_8000_0000 = [] → Goes (exec (.dumpclr bits) s) fun t =>
       (memGet t.mem 0xBF_8000_0007).toNat = (memGet s.mem 0xBF_8000_0007).toNat % 128 ∧
       (∀ a, a ≠ 0xBF_8000_0007 → memGet t.mem a = memGet s.mem a) ∧ t = { s with mem := t.mem }) ∧
     (bit0 = true → ¬ AlarmHalt s → s.halfState (0xBF_8000_0000 / 64) ≠ .n → Goes (exec (.dumpclr bits) s) fun t =>
       (0xBF_8000_0000 / 64, true) ∈ t.snoops ∧ t = { s with snoops := t.snoops }) ∧
     (AlarmHalt s → exec (.dumpclr bits) s = .next s) ∧
     (∀ v, Goes (exec (.domid v) s) fun t => t = { s with cogor := { c with domid := some v } }) ∧
     ∀ fn n, 5 ≤ c.stage.toNat → (∃ d, d < 4 ∧ field c.partcfg (2 * d) 2 = fn) →
       (Goes (exec (.registerWrite ⟨fn, .mailbox 0x110, 8⟩ bits) s) sets) ∧
       (n ≠ 8 → exec (.registerWrite ⟨fn, .mailbox 0x110, n⟩ bits) s = .next s)) ∧
  (∀ (s : State) (nonce b : Nat) (signed : Bool), 5 ≤ s.cogor.stage.toNat →
     let c := s.cogor
     let moves (p : Spdm) (a : Answer) (t : State) : Prop := t = { s with cogor := { c with spdm := p }, answer := a }
     let digest := Config.sha384 c.running
     let chain (tree leaf : Nat) : List Byte := Config.certificates Config.otpUds digest tree (leaf - 1)
     let keys := c.erased = false ∧ c.running ≠ [] ∧ c.err ≠ 5
     let fails (k : Nat) (t : State) : Prop := t.tick = s.tick + k ∧ t.answer = .spdmError
     let report (blocks : List (List Byte)) (tree leaf device : Nat) (t : State) : Prop :=
       let said := leBytes 32 nonce ++ blocks.flatten
       t.answer = .spdm blocks (Config.ecdsaSign Config.otpUds digest said) (Config.lmsSign Config.otpUds digest tree leaf said)
         (chain tree device) ∧
       t = { s with tick := t.tick, answer := t.answer,
                    cogor := { c with aliasTree := tree, aliasLeaf := leaf + 1, deviceLeaf := device, certified := true } }
     let signs (i : Instr) (blocks : List (List Byte)) : Prop :=
       (c.aliasLeaf < 32768 → c.certified = true → Goes (exec i s) fun t =>
         if Config.flashFails s.tick then fails 1 t else t.tick = s.tick + 1 ∧ report blocks c.aliasTree c.aliasLeaf c.deviceLeaf t) ∧
       (32768 ≤ c.aliasLeaf → c.deviceLeaf < 2 ^ 20 → Goes (exec i s) fun t =>
         if Config.flashFails s.tick then fails 1 t else if Config.flashFails (s.tick + 1) then fails 2 t
         else t.tick = s.tick + 2 ∧ report blocks (c.aliasTree + 1) 0 (c.deviceLeaf + 1) t)
     let all := [c.block 1, c.block 2, c.block 3, c.block 4]
     (Goes (exec .getVersion s) (moves .versioned (.spdm [[0x13]] [] [] []))) ∧
     (c.spdm = .versioned → Goes (exec .getCapabilities s) (moves .capable .done)) ∧
     (c.spdm = .capable → Goes (exec .negotiateAlgorithms s) (moves .negotiated (.algorithms [.ecdsaP384, .sha384]))) ∧
     (c.spdm = .negotiated →
       (Goes (exec (.getMeasurements ⟨0xFF, false⟩ nonce) s) (moves .negotiated (.spdm all [] [] []))) ∧
       (1 ≤ b → b ≤ 4 → Goes (exec (.getMeasurements ⟨b, false⟩ nonce) s) (moves .negotiated (.spdm [c.block b] [] [] []))) ∧
       (keys → signs (.challenge nonce) all ∧ signs (.getMeasurements ⟨0xFF, true⟩ nonce) all ∧
         (1 ≤ b → b ≤ 4 → signs (.getMeasurements ⟨b, true⟩ nonce) [c.block b])) ∧
       (keys → ∀ p ∈ ([(.getDigests, fun l => leBytes 48 (Config.sha384 l).toNat), (.getCertificate, id)] :
           List (Instr × (List Byte → List Byte))),
         (c.certified = true → Goes (exec p.1 s)
           (moves .negotiated (.spdm [p.2 (chain c.aliasTree c.deviceLeaf)] [] [] []))) ∧
         (c.certified = false → c.deviceLeaf < 2 ^ 20 → Goes (exec p.1 s) fun t =>
           if Config.flashFails s.tick then fails 1 t
           else t = { s with tick := s.tick + 1, answer := .spdm [p.2 (chain c.aliasTree (c.deviceLeaf + 1))] [] [] [],
                             cogor := { c with certified := true, deviceLeaf := c.deviceLeaf + 1 } })) ∧
       (¬ keys → ∀ i ∈ [Instr.getDigests, .getCertificate], exec i s = .next { s with answer := .spdmError })) ∧
     (c.spdm ≠ .negotiated → ∀ i ∈ [Instr.getDigests, .getCertificate, .challenge nonce, .getMeasurements ⟨b, signed⟩ nonce],
       Goes (exec i s) (moves c.spdm .spdmError))) ∧
  (∀ (s : State) (img : List Byte) (d n : Nat), 3 ≤ s.cogor.stage.toNat →
     let c := s.cogor
     let m := s.mdie d
     let good := verifyCode c.staging c.svnf = 0
     let sensor (v : Word) : Prop := Goes (exec (.getSensorReading d n) s) fun t => t = { s with answer := .value v }
     (Goes (exec (.transferImage img) s) fun t =>
       t = { s with answer := .done, cogor := { c with staging := img, verified := false } }) ∧
     (good → Goes (exec .verifyImage s) fun t => t = { s with answer := .done, cogor := { c with verified := true } }) ∧
     (¬ good → Goes (exec .verifyImage s) fun t => t = { s with answer := .error, cogor := { c with verified := false } }) ∧
     (c.verified = true → c.dumping = none → c.copied = 0 → Goes (exec (.activateFirmware 2) s) fun t =>
       t = { s with answer := .done, cogor := { c with slotBImg := c.slotA, slotA := c.staging, activating := none } }) ∧
     (c.verified = true → c.dumping ≠ none → ∀ k, exec (.activateFirmware k) s =
       .next { s with cogor := { c with activating := some k } }) ∧
     (c.stage ≠ 7 → d < 4 → (n < 15 → sensor (m.counters.getD n 0)) ∧ (n = 15 → sensor (m.pwr.setWidth 64)) ∧
       (n = 16 → sensor (m.temp.setWidth 64)) ∧ (n = 17 → sensor (m.freq.setWidth 64))))

/-- A security alarm halts the module with ERR 5, latches its sensor, clears the session, and blows ERASED where the
sensor's erase bit says so. A fatal error of any cause at any unit, and the watchdog of any die, halt a running module and
start its dump when none is kept; one kept is marked; one under way notes the further cause; no half of the dump region is then held
outside the module (log 81). The unit's memory-side die
counts an uncorrectable error in a directory, a table or a dispatcher (R408, R409, R410, R411, R412, R416). At the end of a
10 µs window of the reference clock the governor of a die steps its frequency by R414, and above 125 °C raises the alarm; a
window without readings breaks a row of low ones (log 36). The patrol scrubber and soft errors in memory, scratchpads, lane
slices, cached copies and fetched lines count and poison as R416 says; one in the registers of a strand that runs a task, whose
earlier accesses are performed and whose writes are complete where the task has a completion word, ends the task with exit value 0xFFFE, counted as a double trap; one in a directory, a table or a dispatcher that cannot be
corrected halts the module (R408, R409, R412, R413, R414, R416). -/
def Obligations.AlarmsGovernorAndErrors : Prop :=
  (∀ (s : State),
     let c := s.cogor
     (∀ q : BitVec 2, Goes (exec (.securityAlarm q) s) fun t => AlarmLatched t ∧ t.cogor.alarms = c.alarms ||| (1 <<< q.toNat) ∧
       t.cogor.spdm = .idle ∧ t.cogor.erased = (c.erased || Config.otpEraseMask.getLsbD q.toNat) ∧
       t = { s with cogor := t.cogor }) ∧
     ∀ (i : Instr) (cause unit : Nat), unit < 8 → i = .fatalError cause unit ∧ 1 ≤ cause ∧ cause ≤ 5 ∨
         i = .watchdogExpire unit ∧ cause = 5 →
       let counted (t : State) : Prop := t.mdies =
         if cause = 1 ∨ cause = 2 ∨ cause = 4 then (s.count (unit % 4) .uecc).mdies else s.mdies
       let own (t : State) : Prop := ∀ l, if 0xBF_8000_0000 ≤ 128 * l ∧ 128 * l < 0xC0_0000_0000 then
           t.dirLine l = { s.dirLine l with lo := .n, hi := .n, loBy := [], hiBy := [] } else t.dirLine l = s.dirLine l
       (c.stage ≠ 7 → c.dumping = none → Goes (exec i s) fun t =>
         t.cogor.stage = 7 ∧ t.cogor.fatal = true ∧ counted t ∧ own t ∧ (∀ k, t.strand k = s.strand k) ∧
         (s.dumpValid = false → t.cogor.dumping = some s.clock ∧
           memGet t.mem 0xBF_8000_000F = BitVec.ofNat 8 cause ∧ memGet t.mem 0xBF_8000_000D = BitVec.ofNat 8 unit) ∧
         (s.dumpValid = true → t.cogor.dumping = none ∧ (memGet t.mem 0xBF_8000_0007).getLsbD 6 = true) ∧
         ∀ a, a < 0xBF_8000_0000 ∨ 0xBF_8000_0020 ≤ a → memGet t.mem a = memGet s.mem a) ∧
       (c.stage = 7 → c.fatal = true → c.dumping ≠ none → Goes (exec i s) fun t => counted t ∧
         memGet t.mem 0xBF_8000_000E = BitVec.ofNat 8 cause ∧ (∀ a, a ≠ 0xBF_8000_000E → memGet t.mem a = memGet s.mem a) ∧
         own t ∧ t = { s with mem := t.mem, mdies := t.mdies, dir := t.dir })) ∧
  (∀ (s : State) (d l : Nat) (pwr : BitVec 16) (temp : BitVec 8) (high : Bool), d < 4 →
     let m := s.mdie d
     let low := 100 * pwr.toNat < 95 * m.plim.toNat ∧ temp.toNat + 5 < m.tlim.toNat
     let hot := m.plim.toNat < pwr.toNat ∨ m.tlim.toNat < temp.toNat
     let row := if s.clock / 10_000 = m.window + 1 then m.lowWindows else 0
     let line := 128 * l
     let home := if line < 0xC0_0000_0000 then l % 12 / 3 else (line - 0x100_0000_0000) / 0x100_0000_0000
     let half := 2 * l + if high then 1 else 0
     let counts (k : Nat) (c : Counter) (t : State) : Prop := t.mdies = (s.count k c).mdies ∧ t = { s with mdies := t.mdies }
     let poisons (k : Nat) (t : State) : Prop := t.mdies = (s.count k .uecc).mdies ∧ half ∈ t.poison ∧
       (∀ h ∈ s.poison, h ∈ t.poison) ∧ (∀ h ∈ t.poison, h = half ∨ h ∈ s.poison) ∧
       t = { s with mdies := t.mdies, poison := t.poison }
     let hits (k : Nat) (f : Bool → SoftErr) : Prop :=
       Goes (exec (.softError (f true)) s) (counts k .cecc) ∧ Goes (exec (.softError (f false)) s) (poisons k)
     (m.window < s.clock / 10_000 → Goes (exec (.governorWindow d pwr temp) s) fun t =>
       (t.mdie d).pwr = pwr ∧ (t.mdie d).temp = temp ∧ (t.mdie d).plim = m.plim ∧ (t.mdie d).tlim = m.tlim ∧
       (t.mdie d).window = s.clock / 10_000 ∧
       (t.mdie d).freq.toNat = (if 115 < temp.toNat then 500 else if hot then max (m.freq.toNat - 25) 500
         else if low ∧ 9 ≤ row then min (m.freq.toNat + 25) 1000 else m.freq.toNat) ∧
       ((t.mdie d).counters.getD Counter.govdown.index 0 = m.counters.getD Counter.govdown.index 0 +
         if hot ∧ temp.toNat ≤ 115 then 1 else 0) ∧
       (∀ j, j ≠ d → t.mdie j = s.mdie j) ∧ t.tick = s.tick + 1 ∧
       (temp.toNat ≤ 125 → t.cogor = s.cogor) ∧ (125 < temp.toNat → AlarmHalt t ∧ t.cogor.alarms.getLsbD 2 = true) ∧
       t = { s with mdies := t.mdies, tick := t.tick, cogor := t.cogor }) ∧
     (s.clock / 10_000 ≤ m.window → exec (.governorWindow d pwr temp) s = .next s) ∧
     (line < 0xC0_0000_0000 ∨ (0x100_0000_0000 ≤ line ∧ line < 0x500_0000_0000) →
       (Goes (exec (.patrolScrub l true) s) (counts home .cecc)) ∧ hits home (.memory l high) ∧ hits d (.dirtyCopy d l high)) ∧
     (0x4_0000_0000_0000 ≤ line → line < 0x10_0000_0000_0000 → hits d (.dirtyCopy d l high)) ∧
     (∀ r ∈ ([(0xF00_0000_0000, 0x200_0000), (0xF00_1000_0000, 0x280_0000), (0xF00_2000_0000, 0x500_0000)] : List (Nat × Nat)),
       r.1 + r.2 * d ≤ line → line < r.1 + r.2 * (d + 1) → hits d (.scratchpad l high)) ∧
     (∀ n e h, n < 640 → e < 32 → h < 64 →
       (Goes (exec (.softError (.slice n e h true)) s) (counts (n / 160) .cecc)) ∧
       Goes (exec (.softError (.slice n e h false)) s) fun t => t.mdies = (s.count (n / 160) .uecc).mdies ∧
         t.isPoisoned (sliceKey n e + 64 * h) 1 = true ∧ t = { s with mdies := t.mdies, poison := t.poison }) ∧
     (∀ ok, Goes (exec (.softError (.cleanCopy d ok)) s) (counts d (if ok then .cecc else .uecc))) ∧
     (Goes (exec (.softError (.fetchLine d)) s) (counts d .uecc)) ∧
     (∀ k, (Goes (exec (.softError (.registers k true)) s) (counts (dieOfStrand k) .cecc)) ∧
       ((s.strand k).run = .free → Goes (exec (.softError (.registers k false)) s) (counts (dieOfStrand k) .uecc)) ∧
       ∀ tk, (s.strand k).run ≠ .free → (s.strand k).task = some tk → tk.gang = none →
         s.ownsActive k = none → s.ownsShadow k = none →
         (∀ p, p < 16 → (s.port (tileOf k) p).st = .unbound ∨ (s.port (tileOf k) p).strand ≠ k) →
         let cpl := tk.words[2]
         cpl = 0 ∨ (PlainAt { s with cur := k } cpl 8 ∧ (s.strand k).outst = [] ∧ s.owesTrigger k = false) →
         Goes (exec (.softError (.registers k false)) s) fun t =>
           (t.strand k).run = .free ∧ (t.strand k).task = none ∧ t.groupsOf k = [] ∧ t.accen k = 0 ∧
           t.mem = (if cpl = 0 then s.mem else memSetBytes s.mem cpl.toNat
             (leBytes 8 (wordAt s cpl ||| 0x4000_0000_FFFE_0000).toNat)) ∧
           t.mdies = ((s.count (dieOfStrand k) .uecc).count (dieOfStrand k) .dbltrap).mdies) ∧
     (∀ table, (Goes (exec (.softError (.directory d table true)) s) (counts d .cecc)) ∧
       (Goes (exec (.softError (.dispatcher d true)) s) (counts d .cecc)) ∧
       (s.cogor.stage ≠ 7 → s.cogor.dumping = none → ∀ i ∈ [SoftErr.directory d table false, .dispatcher d false],
         Goes (exec (.softError i) s) fun t =>
           t.cogor.stage = 7 ∧ t.cogor.fatal = true ∧ t.mdies = (s.count d .uecc).mdies)))

/-- In stages 5 and 6 a read over CXL of bytes of one half that no reservation and no other agent holds in its way answers with them
and their poison, and the requester has the copy it asked for; a write of such bytes below the dump region stores them,
leaves no copy in the module, sends the triggers of the armed entries whose range it touches, and marks poison that comes
with it but cleans none; both answer in the step in which they are performed (log 69). A reservation of policy trap refuses,
and counts; under any other the request waits, and so does a write of a half that another agent holds, which is asked to give it up. A
write of the dump region, and every request while the module is not open (log 81), is answered with an error (R27, R51, R292, R353, R388, R391, R400, R409). A snoop of a host line that meets no reservation
is answered with the halves that the module has modified, and leaves the bridge no copy of the half or a read-only one;
where the home takes the line it then writes there the bytes that the snoop says, with their poison. The answer to a
back-invalidate that was sent takes the half from its holder and stores what it had modified. Configuration reads retry
before stage 5 and then show the domain number, 0 before it is written (log 5) (R292, R345, R388, R391, R392, R398, R400,
R408). -/
def Obligations.CxlTraffic : Prop :=
  (∀ (s : State) (r : Requester) (pa n : Nat) (keep : Half) (bytes : List Byte) (poison : Bool),
     let d := (pa / 128) % 12 / 3
     let len := bytes.length
     let frame (t : State) : State := { s with answer := t.answer, dir := t.dir, asked := t.asked }
     let lines (t : State) : Prop := ∀ l, l ≠ pa / 128 → t.dirLine l = s.dirLine l
     (s.cogor.stage = 5 ∨ s.cogor.stage = 6 → pa < 0xBF_8000_0000 → s.engineHolds 0 pa = false →
       (1 ≤ n → pa % 64 + n ≤ 64 → s.meets 0 pa (keep == .e) = none →
         s.halfState (pa / 64) = .n ∨ s.holders (pa / 64) = [r] ∨ (keep ≠ .e ∧ s.halfState (pa / 64) = .s) →
         Goes (exec (.cxlMemRead r pa n keep) s) fun t =>
           t.answer = .data (memGetBytes s.mem pa n) (s.poison.contains (pa / 64)) ∧ t = frame t ∧
           t.halfState (pa / 64) = (if keep = .n then s.halfState (pa / 64) else keep) ∧
           (keep ≠ .n → r ∈ t.holders (pa / 64)) ∧ (keep = .e → t.holders (pa / 64) = [r]) ∧
           (keep = .e → (t.dirLine (pa / 128)).mod = .i ∧ (t.dirLine (pa / 128)).copies = []) ∧ lines t) ∧
       (1 ≤ len → pa % 64 + len ≤ 64 → s.meets 0 pa true = none → s.halfState (pa / 64) ≠ .n → s.holders (pa / 64) ≠ [r] →
         Goes (exec (.cxlMemWrite r pa bytes poison) s) fun t =>
           (pa / 64, true) ∈ t.snoops ∧ t = { s with snoops := t.snoops }) ∧
       (1 ≤ len → pa % 64 + len ≤ 64 → s.meets 0 pa true = none → s.halfState (pa / 64) = .n ∨ s.holders (pa / 64) = [r] →
         Goes (exec (.cxlMemWrite r pa bytes poison) s) fun t =>
           t.answer = .done ∧ t.mem = memSetBytes s.mem pa bytes ∧ (t.dirLine (pa / 128)).mod = .i ∧
           (t.dirLine (pa / 128)).copies = [] ∧ lines t ∧
           (∀ k e, k < 4 → s.cogor.bringup.getLsbD k = false →
             let x := (s.die k).watch.find WatchEnt.reset e
             x.armed = true → x.desc[1].getLsbD 6 = false → lowestIn x.segs [(pa, len)] ≠ none →
             ∃ u ∈ t.triggers, u.die = k ∧ u.entry = e ∧ u.spans = [(pa, len)] ∧ u.writer = none) ∧
           (poison = true → (∀ h, h ∈ t.poison ↔ h = pa / 64 ∨ h ∈ s.poison) ∧ t.mdies = (s.count d .uecc).mdies) ∧
           (poison = false → t.poison = s.poison ∧ t.mdies = s.mdies) ∧
           (∀ k, t.strand k = (s.strand k).meetsWrite (lineOf pa) (lineOf (pa + len - 1)) false) ∧
           t = { frame t with mem := t.mem, strands := t.strands, triggers := t.triggers, poison := t.poison, mdies := t.mdies }) ∧
       ∀ e, 1 ≤ len → pa % 64 + len ≤ 64 → s.meets 0 pa true = some e →
         (e.policy = 2 → Goes (exec (.cxlMemWrite r pa bytes poison) s) fun t =>
           t.mdies = (s.count d .rsvrefuse).mdies ∧ t = { s with answer := .error, mdies := t.mdies }) ∧
         (e.policy ≠ 2 → Goes (exec (.cxlMemWrite r pa bytes poison) s) fun t =>
           t = { s with queries := t.queries, asked := t.asked })) ∧
     (1 ≤ len → pa % 64 + len ≤ 64 → (0xBF_8000_0000 ≤ pa ∧ pa < 0xC0_0000_0000) ∨ (s.cogor.stage ≠ 5 ∧ s.cogor.stage ≠ 6) →
       exec (.cxlMemWrite r pa bytes poison) s = .next { s with answer := .error }) ∧
     (1 ≤ n → pa % 64 + n ≤ 64 → s.cogor.stage ≠ 5 → s.cogor.stage ≠ 6 → (s.cogor.stage = 7 → s.cogor.fatal = false) →
       exec (.cxlMemRead r pa n keep) s = .next { s with answer := .error })) ∧
  (∀ (s : State) (pa : Nat) (inv : Bool) (bytes : List Byte) (poison : Bool),
     let h := pa / 64
     let l := pa / 128
     let d := s.dirLine l
     let said := 1 ≤ bytes.length ∧ pa % 64 + bytes.length ≤ 64
     let half (h : Nat) : Nat × List Byte × Bool := (64 * h, memGetBytes s.mem (64 * h) 64, s.poison.contains h)
     (0x8_0000_0000_0000 ≤ pa → pa < 0x10_0000_0000_0000 → s.cogor.stage ≠ 7 → s.meets 0 pa inv = none →
       s.engineHolds 0 pa = false → Goes (exec (.cxlSnoop pa inv ⟨bytes, poison⟩) s) fun t =>
         t.answer = .halves ((if d.dlo then [half (2 * l)] else []) ++ if d.dhi then [half (2 * l + 1)] else []) ∧
         t.halfState h = (if inv = true ∨ s.halfState h = .n then .n else .s) ∧
         (t.dirLine l).dlo = false ∧ (t.dirLine l).dhi = false ∧
         (inv = true → (t.dirLine l).mod = .i ∧ (t.dirLine l).copies = []) ∧
         (inv = false → (t.dirLine l).copies = d.copies ∧ (t.dirLine l).mod ≠ .o) ∧
         (∀ j, j ≠ l → t.dirLine j = s.dirLine j) ∧
         t.mem = (if inv = true ∧ 1 ≤ bytes.length ∧ h = (pa + bytes.length - 1) / 64 then memSetBytes s.mem pa bytes else s.mem) ∧
         (∀ x, x ∈ t.poison ↔ x ∈ s.poison ∨ (inv = true ∧ poison = true ∧ x = h)) ∧
         t = { s with answer := t.answer, dir := t.dir, asked := t.asked, mem := t.mem, strands := t.strands, poison := t.poison }) ∧
     (0x8_0000_0000_0000 ≤ pa → pa < 0x10_0000_0000_0000 → s.cogor.stage = 7 →
       exec (.cxlSnoop pa inv ⟨bytes, poison⟩) s = .next { s with answer := .error }) ∧
     ((h, inv) ∈ s.snoops → pa < 0xC0_0000_0000 → ¬ AlarmHalt s → s.wanted = [] →
       Goes (exec (.bisnpComplete pa inv ⟨bytes, poison⟩) s) fun t =>
         t.snoops = s.snoops.erase (h, inv) ∧ t.halfState h = (if inv = true ∨ s.halfState h = .n then .n else .s) ∧
         (s.halfState h = .e → said → t.mem = memSetBytes s.mem pa bytes ∧
           (∀ x, x ∈ t.poison ↔ x ∈ s.poison ∨ (poison = true ∧ x = h)) ∧
           t.mdies = if poison then (s.count (l % 12 / 3) .uecc).mdies else s.mdies) ∧
         (s.halfState h ≠ .e ∨ bytes = [] → t.mem = s.mem ∧ t.poison = s.poison ∧ t.mdies = s.mdies) ∧
         ∀ j, j ≠ l → t.dirLine j = s.dirLine j) ∧
     (s.cogor.stage.toNat < 5 → exec (.cxlConfigRead pa) s = .next { s with answer := .retry }) ∧
     (5 ≤ s.cogor.stage.toNat → Goes (exec (.cxlConfigRead pa) s) fun t => t = { s with answer := t.answer, tick := s.tick + 1 } ∧
       ∃ v, t.answer = .value v ∧ (pa = 0x10 → field v 0 6 = (s.cogor.domid.map BitVec.toNat).getD 0)))

/-! ## The machine as a whole -/

/-- The reset values of the spec: module reset leaves the module in stage 1 with every compute die held in bring-up and no
error; every strand is Free at user level with translation off; every control register to whose fields R235 gives a reset
value reads it, 0 but for VCFG (EW = 0b011), and TILEID and CASKID say where the strand is; no watch entry, queue record,
range reservation, lane group, accumulator, port, fabric load, translation or cached copy is in use; each governor stands at
725 W, 105 °C and 1,000 MHz (R8, R235, R352, R354, R359, R363, R393, R408, R413). That the g, v and mask registers, VL and
every byte of memory are zero is the model's choice where the spec gives no value (log 4, log 5). -/
def Obligations.ResetValues : Prop :=
  ∀ (k : Nat), k < 2560 →
    let s := State.reset
    let x := s.strand k
    let tl := s.tile (tileOf k)
    x.run = .free ∧ x.pl = false ∧ x.ta = false ∧ x.root = 0 ∧ x.asid = 0 ∧ x.resv = none ∧
    (∀ n ∈ [0x001, 0x003, 0x005, 0x006, 0x007, 0x008, 0x800, 0x801, 0x802, 0x803, 0x804, 0x805, 0x806, 0x807,
        0x808, 0x810, 0x811], s.readCsr k n = some 0) ∧
    s.readCsr k 0x000 = some 0x300 ∧ s.readCsr k 0x00D = some (BitVec.ofNat 64 (k % 4 * 2 ^ 16 + k / 4)) ∧
    s.readCsr k 0x00E = some (BitVec.ofNat 64 (k / 16)) ∧
    (∀ j : Fin 8, tl.latc[j] = none ∧ tl.accOwner[j] = none) ∧ tl.active = none ∧ tl.shadow = none ∧
    tl.tlb = [] ∧ tl.l1tlb = [] ∧ s.dir = [] ∧
    (∀ p, (s.port (tileOf k) p).st = .unbound) ∧
    (∀ d : Fin 4, (∀ e, ((s.die d).watch.find WatchEnt.reset e).armed = false ∧
        ((s.die d).watch.find WatchEnt.reset e).asid = 0xFFFF) ∧ (s.die d).queue = [] ∧ (s.die d).hvec = 0 ∧
      (s.mdie d).ranges = [] ∧ (s.mdie d).plim = 725 ∧ (s.mdie d).tlim = 105 ∧ (s.mdie d).freq = 1000) ∧
    s.cogor.stage = 1 ∧ s.cogor.err = 0 ∧ s.cogor.bringup = 0xF ∧
    (∀ r, x.readG r = 0) ∧ x.v = Vector.replicate 32 0 ∧ x.m = Vector.replicate 8 0 ∧ x.vl = 0 ∧ ∀ a, memGet s.mem a = 0

/-- A step of an issuing strand that runs, in a module whose dies are neither held in reset nor halted (R400), with no
asynchronous cause to take: the word that the fetch gives is executed as the instruction it decodes to, an illegal word as
ILLEGAL_INSTRUCTION, and a fetch that traps takes its trap. The fetch of ordinary memory gives the four bytes at the pc, the
lowest first. The strand is the one that the schedule names, or with no move left the last one; around exec a step only
removes the move, lets its time pass and notes that the strand has issued in this cycle, in which two strands of a tile do, each once:
the issue of a further one is in the next cycle (R20, R109, R110, R133; log 1, log 2). A step whose move is an event of a unit performs
that event after the move's time, or, in a halted module that does not take it, nothing; a strand with an asynchronous cause
to take takes it; in stages 5 and 6 an engine makes a read, holds the lines, or does the unit that the move names. A
request from outside that needs an absent feature, one that R345 does not list among them, is an unsupported request, and the capability of one reads as absent; a
read through BAR0 of 8 aligned bytes gives the register, one of 4 the addressed half (R239, R286, R345, R346, R347, R359,
R400, R404, R408; log 1, log 40). -/
def Obligations.StepRunsDecoded : Prop :=
  (∀ (s : State) (k dt : Nat) (r : List Move),
     s.plan = .issue k dt :: r ∨ (s.plan = [] ∧ r = [] ∧ k = s.cur ∧ dt = 1 ∧ s.cogor.stage ≠ 7) →
     let u := { s with plan := r, cur := k }.advance dt
     (u.cogor.stage = 5 ∨ u.cogor.stage = 6) → u.me.run = .running → u.asyncReady u.cur = false →
     let cycle (x : State) (j : Nat) : Nat := (x.die (dieOfStrand j)).cycles / 1000
     let now : List (Nat × Nat) := u.issued.filter fun e => e.2 == cycle u e.1
     let full : Prop := (∃ e ∈ now, e.1 = k) ∨ 2 ≤ (now.filter fun e => tileOf e.1 == tileOf k).length
     let f : Nat := (u.mdie (dieOfStrand k)).freq.toNat
     ∀ x : State, (¬full → x = u) → (full → x = u.advance ((1000 - (u.die (dieOfStrand k)).cycles % 1000 + f - 1) / f)) →
     let u : State := { x with issued := (k, cycle x k) :: x.issued.filter fun e => e.2 == cycle x e.1 }
     (∀ (w : IWord) (v : State), u.fetch = .ok w v →
       (∀ i, decode w = .ok i → step s = exec i v) ∧
       (∀ e, decode w = .reject e → step s = exec (.illegalInstruction w) v)) ∧
     (∀ (t0 : Trap) (v : State), u.fetch = .trap t0 v → step s = .next (v.enterTrap t0)) ∧
     (PlainAt u u.me.pc 4 → ∃ v, u.fetch = .ok (BitVec.ofNat 32 (leNat (memGetBytes u.mem u.me.pc.toNat 4))) v ∧
       OnlyStrandAndLine u.cur u.me.pc.toNat u v ∧ v.me = u.me)) ∧
  (∀ (s : State) (dt : Nat) (r : List Move),
     let u := { s with plan := r }.advance dt
     let absent (f : CxlFeature) : Bool := match f with
       | .unlisted _ => true
       | f => [CxlFeature.flit68, .latencyOptimised, .type3, .multiLogical, .dynamicCapacity, .globalFabric, .ide, .hdmH, .hdmD].contains f
     (∀ i : Instr, encode i = none → i ≠ .fetchPageFault → (∀ w, i ≠ .illegalInstruction w) → s.plan = .event i dt :: r →
       (u.cogor.stage ≠ 7 ∨ runsHalted i = true → step s = exec i u) ∧
       (u.cogor.stage = 7 → runsHalted i = false → step s = .next u)) ∧
     (∀ k : Nat, s.plan = .issue k dt :: r →
       let u := { s with plan := r, cur := k }.advance dt
       (u.cogor.stage = 5 ∨ u.cogor.stage = 6) → u.me.run = .running → u.asyncReady u.cur = true →
         step s = exec (.asyncTrap u.cur) u) ∧
     (∀ c n k, ∀ p ∈ ([(.engRead c n k dt, u.engReadAhead c n k), (.engHold c dt, u.engHoldLines c), (.engUnit c 0 dt, u.engOneUnit c),
         (.engUnit c (n + 1) dt, u.engLead c (n + 1))] : List (Move × State)), s.plan = p.1 :: r →
       step s = .next (if u.cogor.stage = 5 ∨ u.cogor.stage = 6 then p.2 else u)) ∧
     (∀ f, s.plan = .outside (.feature f) dt :: r →
       step s = .next (if absent f then { u with answer := .unsupported } else u)) ∧
     (∀ f, s.plan = .outside (.capability f) dt :: r →
       let a : Answer := if u.cogor.stage.toNat < 5 then .retry else .value (if absent f then 0 else 1)
       step s = .next { u with answer := a }) ∧
     ∀ fn reg n, s.plan = .outside (.barRead fn reg n) dt :: r →
       let dies := (List.range 4).filter fun d => field u.cogor.partcfg (2 * d) 2 == fn
       let reads (v : Word) : Prop := step s = .next { u with answer := .value v }
       (u.cogor.stage.toNat < 5 ∨ dies = [] → step s = .next { u with answer := .unsupported }) ∧
       (5 ≤ u.cogor.stage.toNat → dies ≠ [] → reg = .mailbox 0 → (n = 8 → reads u.cogor.status) ∧
         (n = 4 → reads (BitVec.ofNat 64 (u.cogor.status.toNat % 2 ^ 32)))) ∧
       ∀ i d, 5 ≤ u.cogor.stage.toNat → u.cogor.stage ≠ 7 → dies[i]? = some d →
         (reg = .block i 0x20 → n = 8 → reads (u.die d).hvec) ∧ (reg = .block i 0x18 → n = 8 → reads ((u.die d).dlost.setWidth 64)) ∧
         (reg = .block i 0x24 → n = 4 → reads (BitVec.ofNat 64 ((u.die d).hvec.toNat / 2 ^ 32))) ∧
         ∀ k, k < 15 → reg = .memorySide i (8 * k) → n = 8 → reads ((u.mdie d).counters.getD k 0))

/-- Words written out from the formats of R106 decode to their instructions: one or two of each format. -/
def Obligations.DecodedWords : Prop :=
  ∀ p ∈ ([(0x0464_2800, .add 3 4 5), (0x10C6_FFF0, .addi 6 6 0xFFF0), (0x60A6_0008, .ld 5 6 8),
      (0x44A0_FFFE, .bne 5 0 0xFFFE), (0x5FFF_FFFF, .jal 0x3FF_FFFF), (0x3864_2801, .fadd .f32 3 4 5),
      (0x8C61_1681, .vadd .s32 3 1 2 { on := true, num := 5 }), (0xB043_0003, .vld .w64 2 3 { on := false, num := 0 }),
      (0xC814_0000, .accon 0 5), (0xC110_A533, .mopa .bf16 2 4 5 1 2 3), (0xD000_1800, .fence 3),
      (0xD443_2000, .cpy 2 3 4), (0xDC80_0000, .tspawn 4), (0xE0A0_0002, .csrr 5 2), (0xE400_0000, .eret)] :
        List (IWord × Instr)),
    decode p.1 = .ok p.2

/-- Decoding gives back every well-formed instruction that has a word (R106, R108). A word decodes to one instruction at
most, that instruction is well formed, and the word is its encoding: no two words are the same instruction, and every word
that is none is illegal (R108). -/
def Obligations.EncodingIsOneToOne : Prop :=
  (∀ (i : Instr) (w : IWord), i.wf = true → encode i = some w → decode w = .ok i) ∧
  (∀ (i : Instr) (w : IWord), decode w = .ok i → i.wf = true ∧ encode i = some w)

/-- A module that an alarm has halted stays so through every step, unless the step is a cold reset or an activation of a verified image
that a cold reset interrupts while copies are left to make (R404, R408, R411, R419; log 38). -/
def Obligations.AlarmHaltStays : Prop :=
  ∀ (s t : State), AlarmLatched s → step s = .next t →
    (∀ dt, s.plan.head? ≠ some (.event .coldReset dt)) → (∀ n dt, s.plan.head? = some (.event (.activateFirmware n) dt) → s.cogor.verified = true → s.cogor.copiesLeft ≤ n) →
    AlarmLatched t

/-- The model's own invariant (log 4): every step keeps memory in its canonical form, addresses strictly rising and no byte
listed that reads as an unlisted one. -/
def Obligations.MemoryStaysCanonical : Prop :=
  ∀ s t : State, Memory.wf s.mem = true → step s = .next t → Memory.wf t.mem = true

/-- Reset memory has that form (log 4). -/
def Obligations.ResetMemoryIsCanonical : Prop := Memory.wf State.reset.mem = true
end

