-- ==== Sys2Proof/Laws/State.lean ====
section
/-!
SUPPORT. One lemma for each field under each update of the state, and how a part reads after a part is replaced.
-/

namespace Sys2Proof.Machine

/-! ## Tables -/

@[simp] theorem Table.find_put_same {α : Type} (dflt : α) (t : Table α) (k : Nat) (v : α) :
    Table.find dflt (t.put k v) k = v := by
  induction t with
  | nil => simp [Table.put, Table.find]
  | cons e r ih =>
    obtain ⟨k', v'⟩ := e
    simp only [Table.put]
    split
    · simp [Table.find]
    · split
      · simp [Table.find]
      · simp_all [Table.find]

theorem Table.find_put_other {α : Type} (dflt : α) (t : Table α) {k j : Nat} (v : α) (h : j ≠ k) :
    Table.find dflt (t.put k v) j = Table.find dflt t j := by
  induction t with
  | nil => simp [Table.put, Table.find, h]
  | cons e r ih =>
    obtain ⟨k', v'⟩ := e
    simp only [Table.put]
    split
    · simp [Table.find, h]
    · split
      · next h2 => subst h2; simp [Table.find, h]
      · simp only [Table.find, ih]

theorem Table.put_put {α : Type} (t : Table α) (k : Nat) (v w : α) : (t.put k v).put k w = t.put k w := by
  induction t with
  | nil => simp [Table.put]
  | cons e r ih =>
    obtain ⟨k', v'⟩ := e
    simp only [Table.put]
    split
    · simp [Table.put]
    · split
      · next h1 h2 => subst h2; simp [Table.put]
      · next h1 h2 => simp only [Table.put, if_neg h1, if_neg h2, ih]

/-! ## Fields under updates -/

@[simp] theorem State.setStrand_cur (s : State) (k : Nat) (x : Strand) : (s.setStrand k x).cur = s.cur := rfl
@[simp] theorem State.setStrand_plan (s : State) (k : Nat) (x : Strand) : (s.setStrand k x).plan = s.plan := rfl
@[simp] theorem State.setStrand_tick (s : State) (k : Nat) (x : Strand) : (s.setStrand k x).tick = s.tick := rfl
@[simp] theorem State.setStrand_clock (s : State) (k : Nat) (x : Strand) : (s.setStrand k x).clock = s.clock := rfl
@[simp] theorem State.setStrand_nextId (s : State) (k : Nat) (x : Strand) : (s.setStrand k x).nextId = s.nextId := rfl
@[simp] theorem State.setStrand_tiles (s : State) (k : Nat) (x : Strand) : (s.setStrand k x).tiles = s.tiles := rfl
@[simp] theorem State.setStrand_dies (s : State) (k : Nat) (x : Strand) : (s.setStrand k x).dies = s.dies := rfl
@[simp] theorem State.setStrand_mdies (s : State) (k : Nat) (x : Strand) : (s.setStrand k x).mdies = s.mdies := rfl
@[simp] theorem State.setStrand_mem (s : State) (k : Nat) (x : Strand) : (s.setStrand k x).mem = s.mem := rfl
@[simp] theorem State.setStrand_poison (s : State) (k : Nat) (x : Strand) : (s.setStrand k x).poison = s.poison := rfl
@[simp] theorem State.setStrand_dir (s : State) (k : Nat) (x : Strand) : (s.setStrand k x).dir = s.dir := rfl
@[simp] theorem State.setStrand_cmds (s : State) (k : Nat) (x : Strand) : (s.setStrand k x).cmds = s.cmds := rfl
@[simp] theorem State.setStrand_triggers (s : State) (k : Nat) (x : Strand) : (s.setStrand k x).triggers = s.triggers := rfl
@[simp] theorem State.setStrand_waiting (s : State) (k : Nat) (x : Strand) : (s.setStrand k x).waiting = s.waiting := rfl
@[simp] theorem State.setStrand_queries (s : State) (k : Nat) (x : Strand) : (s.setStrand k x).queries = s.queries := rfl
@[simp] theorem State.setStrand_asked (s : State) (k : Nat) (x : Strand) : (s.setStrand k x).asked = s.asked := rfl
@[simp] theorem State.setStrand_kept (s : State) (k : Nat) (x : Strand) : (s.setStrand k x).kept = s.kept := rfl
@[simp] theorem State.setStrand_snoops (s : State) (k : Nat) (x : Strand) : (s.setStrand k x).snoops = s.snoops := rfl
@[simp] theorem State.setStrand_wanted (s : State) (k : Nat) (x : Strand) : (s.setStrand k x).wanted = s.wanted := rfl
@[simp] theorem State.setStrand_frozen (s : State) (k : Nat) (x : Strand) : (s.setStrand k x).frozen = s.frozen := rfl
@[simp] theorem State.setStrand_cogor (s : State) (k : Nat) (x : Strand) : (s.setStrand k x).cogor = s.cogor := rfl
@[simp] theorem State.setStrand_answer (s : State) (k : Nat) (x : Strand) : (s.setStrand k x).answer = s.answer := rfl

@[simp] theorem State.mapMe_cur (s : State) (f : Strand → Strand) : (s.mapMe f).cur = s.cur := rfl
@[simp] theorem State.mapMe_plan (s : State) (f : Strand → Strand) : (s.mapMe f).plan = s.plan := rfl
@[simp] theorem State.mapMe_tick (s : State) (f : Strand → Strand) : (s.mapMe f).tick = s.tick := rfl
@[simp] theorem State.mapMe_clock (s : State) (f : Strand → Strand) : (s.mapMe f).clock = s.clock := rfl
@[simp] theorem State.mapMe_nextId (s : State) (f : Strand → Strand) : (s.mapMe f).nextId = s.nextId := rfl
@[simp] theorem State.mapMe_tiles (s : State) (f : Strand → Strand) : (s.mapMe f).tiles = s.tiles := rfl
@[simp] theorem State.mapMe_dies (s : State) (f : Strand → Strand) : (s.mapMe f).dies = s.dies := rfl
@[simp] theorem State.mapMe_mdies (s : State) (f : Strand → Strand) : (s.mapMe f).mdies = s.mdies := rfl
@[simp] theorem State.mapMe_mem (s : State) (f : Strand → Strand) : (s.mapMe f).mem = s.mem := rfl
@[simp] theorem State.mapMe_poison (s : State) (f : Strand → Strand) : (s.mapMe f).poison = s.poison := rfl
@[simp] theorem State.mapMe_dir (s : State) (f : Strand → Strand) : (s.mapMe f).dir = s.dir := rfl
@[simp] theorem State.mapMe_cmds (s : State) (f : Strand → Strand) : (s.mapMe f).cmds = s.cmds := rfl
@[simp] theorem State.mapMe_triggers (s : State) (f : Strand → Strand) : (s.mapMe f).triggers = s.triggers := rfl
@[simp] theorem State.mapMe_waiting (s : State) (f : Strand → Strand) : (s.mapMe f).waiting = s.waiting := rfl
@[simp] theorem State.mapMe_queries (s : State) (f : Strand → Strand) : (s.mapMe f).queries = s.queries := rfl
@[simp] theorem State.mapMe_asked (s : State) (f : Strand → Strand) : (s.mapMe f).asked = s.asked := rfl
@[simp] theorem State.mapMe_kept (s : State) (f : Strand → Strand) : (s.mapMe f).kept = s.kept := rfl
@[simp] theorem State.mapMe_snoops (s : State) (f : Strand → Strand) : (s.mapMe f).snoops = s.snoops := rfl
@[simp] theorem State.mapMe_wanted (s : State) (f : Strand → Strand) : (s.mapMe f).wanted = s.wanted := rfl
@[simp] theorem State.mapMe_frozen (s : State) (f : Strand → Strand) : (s.mapMe f).frozen = s.frozen := rfl
@[simp] theorem State.mapMe_cogor (s : State) (f : Strand → Strand) : (s.mapMe f).cogor = s.cogor := rfl
@[simp] theorem State.mapMe_answer (s : State) (f : Strand → Strand) : (s.mapMe f).answer = s.answer := rfl

@[simp] theorem State.mapStrand_cur (s : State) (k : Nat) (f : Strand → Strand) : (s.mapStrand k f).cur = s.cur := rfl
@[simp] theorem State.mapStrand_plan (s : State) (k : Nat) (f : Strand → Strand) : (s.mapStrand k f).plan = s.plan := rfl
@[simp] theorem State.mapStrand_tick (s : State) (k : Nat) (f : Strand → Strand) : (s.mapStrand k f).tick = s.tick := rfl
@[simp] theorem State.mapStrand_clock (s : State) (k : Nat) (f : Strand → Strand) : (s.mapStrand k f).clock = s.clock := rfl
@[simp] theorem State.mapStrand_nextId (s : State) (k : Nat) (f : Strand → Strand) : (s.mapStrand k f).nextId = s.nextId := rfl
@[simp] theorem State.mapStrand_tiles (s : State) (k : Nat) (f : Strand → Strand) : (s.mapStrand k f).tiles = s.tiles := rfl
@[simp] theorem State.mapStrand_dies (s : State) (k : Nat) (f : Strand → Strand) : (s.mapStrand k f).dies = s.dies := rfl
@[simp] theorem State.mapStrand_mdies (s : State) (k : Nat) (f : Strand → Strand) : (s.mapStrand k f).mdies = s.mdies := rfl
@[simp] theorem State.mapStrand_mem (s : State) (k : Nat) (f : Strand → Strand) : (s.mapStrand k f).mem = s.mem := rfl
@[simp] theorem State.mapStrand_poison (s : State) (k : Nat) (f : Strand → Strand) : (s.mapStrand k f).poison = s.poison := rfl
@[simp] theorem State.mapStrand_dir (s : State) (k : Nat) (f : Strand → Strand) : (s.mapStrand k f).dir = s.dir := rfl
@[simp] theorem State.mapStrand_cmds (s : State) (k : Nat) (f : Strand → Strand) : (s.mapStrand k f).cmds = s.cmds := rfl
@[simp] theorem State.mapStrand_triggers (s : State) (k : Nat) (f : Strand → Strand) : (s.mapStrand k f).triggers = s.triggers := rfl
@[simp] theorem State.mapStrand_waiting (s : State) (k : Nat) (f : Strand → Strand) : (s.mapStrand k f).waiting = s.waiting := rfl
@[simp] theorem State.mapStrand_queries (s : State) (k : Nat) (f : Strand → Strand) : (s.mapStrand k f).queries = s.queries := rfl
@[simp] theorem State.mapStrand_asked (s : State) (k : Nat) (f : Strand → Strand) : (s.mapStrand k f).asked = s.asked := rfl
@[simp] theorem State.mapStrand_kept (s : State) (k : Nat) (f : Strand → Strand) : (s.mapStrand k f).kept = s.kept := rfl
@[simp] theorem State.mapStrand_snoops (s : State) (k : Nat) (f : Strand → Strand) : (s.mapStrand k f).snoops = s.snoops := rfl
@[simp] theorem State.mapStrand_wanted (s : State) (k : Nat) (f : Strand → Strand) : (s.mapStrand k f).wanted = s.wanted := rfl
@[simp] theorem State.mapStrand_frozen (s : State) (k : Nat) (f : Strand → Strand) : (s.mapStrand k f).frozen = s.frozen := rfl
@[simp] theorem State.mapStrand_cogor (s : State) (k : Nat) (f : Strand → Strand) : (s.mapStrand k f).cogor = s.cogor := rfl
@[simp] theorem State.mapStrand_answer (s : State) (k : Nat) (f : Strand → Strand) : (s.mapStrand k f).answer = s.answer := rfl

@[simp] theorem State.setTile_cur (s : State) (n : Nat) (x : Tile) : (s.setTile n x).cur = s.cur := rfl
@[simp] theorem State.setTile_plan (s : State) (n : Nat) (x : Tile) : (s.setTile n x).plan = s.plan := rfl
@[simp] theorem State.setTile_tick (s : State) (n : Nat) (x : Tile) : (s.setTile n x).tick = s.tick := rfl
@[simp] theorem State.setTile_clock (s : State) (n : Nat) (x : Tile) : (s.setTile n x).clock = s.clock := rfl
@[simp] theorem State.setTile_nextId (s : State) (n : Nat) (x : Tile) : (s.setTile n x).nextId = s.nextId := rfl
@[simp] theorem State.setTile_strands (s : State) (n : Nat) (x : Tile) : (s.setTile n x).strands = s.strands := rfl
@[simp] theorem State.setTile_dies (s : State) (n : Nat) (x : Tile) : (s.setTile n x).dies = s.dies := rfl
@[simp] theorem State.setTile_mdies (s : State) (n : Nat) (x : Tile) : (s.setTile n x).mdies = s.mdies := rfl
@[simp] theorem State.setTile_mem (s : State) (n : Nat) (x : Tile) : (s.setTile n x).mem = s.mem := rfl
@[simp] theorem State.setTile_poison (s : State) (n : Nat) (x : Tile) : (s.setTile n x).poison = s.poison := rfl
@[simp] theorem State.setTile_dir (s : State) (n : Nat) (x : Tile) : (s.setTile n x).dir = s.dir := rfl
@[simp] theorem State.setTile_cmds (s : State) (n : Nat) (x : Tile) : (s.setTile n x).cmds = s.cmds := rfl
@[simp] theorem State.setTile_triggers (s : State) (n : Nat) (x : Tile) : (s.setTile n x).triggers = s.triggers := rfl
@[simp] theorem State.setTile_waiting (s : State) (n : Nat) (x : Tile) : (s.setTile n x).waiting = s.waiting := rfl
@[simp] theorem State.setTile_queries (s : State) (n : Nat) (x : Tile) : (s.setTile n x).queries = s.queries := rfl
@[simp] theorem State.setTile_asked (s : State) (n : Nat) (x : Tile) : (s.setTile n x).asked = s.asked := rfl
@[simp] theorem State.setTile_kept (s : State) (n : Nat) (x : Tile) : (s.setTile n x).kept = s.kept := rfl
@[simp] theorem State.setTile_snoops (s : State) (n : Nat) (x : Tile) : (s.setTile n x).snoops = s.snoops := rfl
@[simp] theorem State.setTile_wanted (s : State) (n : Nat) (x : Tile) : (s.setTile n x).wanted = s.wanted := rfl
@[simp] theorem State.setTile_frozen (s : State) (n : Nat) (x : Tile) : (s.setTile n x).frozen = s.frozen := rfl
@[simp] theorem State.setTile_cogor (s : State) (n : Nat) (x : Tile) : (s.setTile n x).cogor = s.cogor := rfl
@[simp] theorem State.setTile_answer (s : State) (n : Nat) (x : Tile) : (s.setTile n x).answer = s.answer := rfl

@[simp] theorem State.mapTile_cur (s : State) (n : Nat) (f : Tile → Tile) : (s.mapTile n f).cur = s.cur := rfl
@[simp] theorem State.mapTile_plan (s : State) (n : Nat) (f : Tile → Tile) : (s.mapTile n f).plan = s.plan := rfl
@[simp] theorem State.mapTile_tick (s : State) (n : Nat) (f : Tile → Tile) : (s.mapTile n f).tick = s.tick := rfl
@[simp] theorem State.mapTile_clock (s : State) (n : Nat) (f : Tile → Tile) : (s.mapTile n f).clock = s.clock := rfl
@[simp] theorem State.mapTile_nextId (s : State) (n : Nat) (f : Tile → Tile) : (s.mapTile n f).nextId = s.nextId := rfl
@[simp] theorem State.mapTile_strands (s : State) (n : Nat) (f : Tile → Tile) : (s.mapTile n f).strands = s.strands := rfl
@[simp] theorem State.mapTile_dies (s : State) (n : Nat) (f : Tile → Tile) : (s.mapTile n f).dies = s.dies := rfl
@[simp] theorem State.mapTile_mdies (s : State) (n : Nat) (f : Tile → Tile) : (s.mapTile n f).mdies = s.mdies := rfl
@[simp] theorem State.mapTile_mem (s : State) (n : Nat) (f : Tile → Tile) : (s.mapTile n f).mem = s.mem := rfl
@[simp] theorem State.mapTile_poison (s : State) (n : Nat) (f : Tile → Tile) : (s.mapTile n f).poison = s.poison := rfl
@[simp] theorem State.mapTile_dir (s : State) (n : Nat) (f : Tile → Tile) : (s.mapTile n f).dir = s.dir := rfl
@[simp] theorem State.mapTile_cmds (s : State) (n : Nat) (f : Tile → Tile) : (s.mapTile n f).cmds = s.cmds := rfl
@[simp] theorem State.mapTile_triggers (s : State) (n : Nat) (f : Tile → Tile) : (s.mapTile n f).triggers = s.triggers := rfl
@[simp] theorem State.mapTile_waiting (s : State) (n : Nat) (f : Tile → Tile) : (s.mapTile n f).waiting = s.waiting := rfl
@[simp] theorem State.mapTile_queries (s : State) (n : Nat) (f : Tile → Tile) : (s.mapTile n f).queries = s.queries := rfl
@[simp] theorem State.mapTile_asked (s : State) (n : Nat) (f : Tile → Tile) : (s.mapTile n f).asked = s.asked := rfl
@[simp] theorem State.mapTile_kept (s : State) (n : Nat) (f : Tile → Tile) : (s.mapTile n f).kept = s.kept := rfl
@[simp] theorem State.mapTile_snoops (s : State) (n : Nat) (f : Tile → Tile) : (s.mapTile n f).snoops = s.snoops := rfl
@[simp] theorem State.mapTile_wanted (s : State) (n : Nat) (f : Tile → Tile) : (s.mapTile n f).wanted = s.wanted := rfl
@[simp] theorem State.mapTile_frozen (s : State) (n : Nat) (f : Tile → Tile) : (s.mapTile n f).frozen = s.frozen := rfl
@[simp] theorem State.mapTile_cogor (s : State) (n : Nat) (f : Tile → Tile) : (s.mapTile n f).cogor = s.cogor := rfl
@[simp] theorem State.mapTile_answer (s : State) (n : Nat) (f : Tile → Tile) : (s.mapTile n f).answer = s.answer := rfl

@[simp] theorem State.mapDie_cur (s : State) (d : Nat) (f : Die → Die) : (s.mapDie d f).cur = s.cur := rfl
@[simp] theorem State.mapDie_plan (s : State) (d : Nat) (f : Die → Die) : (s.mapDie d f).plan = s.plan := rfl
@[simp] theorem State.mapDie_tick (s : State) (d : Nat) (f : Die → Die) : (s.mapDie d f).tick = s.tick := rfl
@[simp] theorem State.mapDie_clock (s : State) (d : Nat) (f : Die → Die) : (s.mapDie d f).clock = s.clock := rfl
@[simp] theorem State.mapDie_nextId (s : State) (d : Nat) (f : Die → Die) : (s.mapDie d f).nextId = s.nextId := rfl
@[simp] theorem State.mapDie_strands (s : State) (d : Nat) (f : Die → Die) : (s.mapDie d f).strands = s.strands := rfl
@[simp] theorem State.mapDie_tiles (s : State) (d : Nat) (f : Die → Die) : (s.mapDie d f).tiles = s.tiles := rfl
@[simp] theorem State.mapDie_mdies (s : State) (d : Nat) (f : Die → Die) : (s.mapDie d f).mdies = s.mdies := rfl
@[simp] theorem State.mapDie_mem (s : State) (d : Nat) (f : Die → Die) : (s.mapDie d f).mem = s.mem := rfl
@[simp] theorem State.mapDie_poison (s : State) (d : Nat) (f : Die → Die) : (s.mapDie d f).poison = s.poison := rfl
@[simp] theorem State.mapDie_dir (s : State) (d : Nat) (f : Die → Die) : (s.mapDie d f).dir = s.dir := rfl
@[simp] theorem State.mapDie_cmds (s : State) (d : Nat) (f : Die → Die) : (s.mapDie d f).cmds = s.cmds := rfl
@[simp] theorem State.mapDie_triggers (s : State) (d : Nat) (f : Die → Die) : (s.mapDie d f).triggers = s.triggers := rfl
@[simp] theorem State.mapDie_waiting (s : State) (d : Nat) (f : Die → Die) : (s.mapDie d f).waiting = s.waiting := rfl
@[simp] theorem State.mapDie_queries (s : State) (d : Nat) (f : Die → Die) : (s.mapDie d f).queries = s.queries := rfl
@[simp] theorem State.mapDie_asked (s : State) (d : Nat) (f : Die → Die) : (s.mapDie d f).asked = s.asked := rfl
@[simp] theorem State.mapDie_kept (s : State) (d : Nat) (f : Die → Die) : (s.mapDie d f).kept = s.kept := rfl
@[simp] theorem State.mapDie_snoops (s : State) (d : Nat) (f : Die → Die) : (s.mapDie d f).snoops = s.snoops := rfl
@[simp] theorem State.mapDie_wanted (s : State) (d : Nat) (f : Die → Die) : (s.mapDie d f).wanted = s.wanted := rfl
@[simp] theorem State.mapDie_frozen (s : State) (d : Nat) (f : Die → Die) : (s.mapDie d f).frozen = s.frozen := rfl
@[simp] theorem State.mapDie_cogor (s : State) (d : Nat) (f : Die → Die) : (s.mapDie d f).cogor = s.cogor := rfl
@[simp] theorem State.mapDie_answer (s : State) (d : Nat) (f : Die → Die) : (s.mapDie d f).answer = s.answer := rfl

@[simp] theorem State.mapMDie_cur (s : State) (d : Nat) (f : MDie → MDie) : (s.mapMDie d f).cur = s.cur := rfl
@[simp] theorem State.mapMDie_plan (s : State) (d : Nat) (f : MDie → MDie) : (s.mapMDie d f).plan = s.plan := rfl
@[simp] theorem State.mapMDie_tick (s : State) (d : Nat) (f : MDie → MDie) : (s.mapMDie d f).tick = s.tick := rfl
@[simp] theorem State.mapMDie_clock (s : State) (d : Nat) (f : MDie → MDie) : (s.mapMDie d f).clock = s.clock := rfl
@[simp] theorem State.mapMDie_nextId (s : State) (d : Nat) (f : MDie → MDie) : (s.mapMDie d f).nextId = s.nextId := rfl
@[simp] theorem State.mapMDie_strands (s : State) (d : Nat) (f : MDie → MDie) : (s.mapMDie d f).strands = s.strands := rfl
@[simp] theorem State.mapMDie_tiles (s : State) (d : Nat) (f : MDie → MDie) : (s.mapMDie d f).tiles = s.tiles := rfl
@[simp] theorem State.mapMDie_dies (s : State) (d : Nat) (f : MDie → MDie) : (s.mapMDie d f).dies = s.dies := rfl
@[simp] theorem State.mapMDie_mem (s : State) (d : Nat) (f : MDie → MDie) : (s.mapMDie d f).mem = s.mem := rfl
@[simp] theorem State.mapMDie_poison (s : State) (d : Nat) (f : MDie → MDie) : (s.mapMDie d f).poison = s.poison := rfl
@[simp] theorem State.mapMDie_dir (s : State) (d : Nat) (f : MDie → MDie) : (s.mapMDie d f).dir = s.dir := rfl
@[simp] theorem State.mapMDie_cmds (s : State) (d : Nat) (f : MDie → MDie) : (s.mapMDie d f).cmds = s.cmds := rfl
@[simp] theorem State.mapMDie_triggers (s : State) (d : Nat) (f : MDie → MDie) : (s.mapMDie d f).triggers = s.triggers := rfl
@[simp] theorem State.mapMDie_waiting (s : State) (d : Nat) (f : MDie → MDie) : (s.mapMDie d f).waiting = s.waiting := rfl
@[simp] theorem State.mapMDie_queries (s : State) (d : Nat) (f : MDie → MDie) : (s.mapMDie d f).queries = s.queries := rfl
@[simp] theorem State.mapMDie_asked (s : State) (d : Nat) (f : MDie → MDie) : (s.mapMDie d f).asked = s.asked := rfl
@[simp] theorem State.mapMDie_kept (s : State) (d : Nat) (f : MDie → MDie) : (s.mapMDie d f).kept = s.kept := rfl
@[simp] theorem State.mapMDie_snoops (s : State) (d : Nat) (f : MDie → MDie) : (s.mapMDie d f).snoops = s.snoops := rfl
@[simp] theorem State.mapMDie_wanted (s : State) (d : Nat) (f : MDie → MDie) : (s.mapMDie d f).wanted = s.wanted := rfl
@[simp] theorem State.mapMDie_frozen (s : State) (d : Nat) (f : MDie → MDie) : (s.mapMDie d f).frozen = s.frozen := rfl
@[simp] theorem State.mapMDie_cogor (s : State) (d : Nat) (f : MDie → MDie) : (s.mapMDie d f).cogor = s.cogor := rfl
@[simp] theorem State.mapMDie_answer (s : State) (d : Nat) (f : MDie → MDie) : (s.mapMDie d f).answer = s.answer := rfl

@[simp] theorem State.count_cur (s : State) (d : Nat) (c : Counter) : (s.count d c).cur = s.cur := rfl
@[simp] theorem State.count_plan (s : State) (d : Nat) (c : Counter) : (s.count d c).plan = s.plan := rfl
@[simp] theorem State.count_tick (s : State) (d : Nat) (c : Counter) : (s.count d c).tick = s.tick := rfl
@[simp] theorem State.count_clock (s : State) (d : Nat) (c : Counter) : (s.count d c).clock = s.clock := rfl
@[simp] theorem State.count_nextId (s : State) (d : Nat) (c : Counter) : (s.count d c).nextId = s.nextId := rfl
@[simp] theorem State.count_strands (s : State) (d : Nat) (c : Counter) : (s.count d c).strands = s.strands := rfl
@[simp] theorem State.count_tiles (s : State) (d : Nat) (c : Counter) : (s.count d c).tiles = s.tiles := rfl
@[simp] theorem State.count_dies (s : State) (d : Nat) (c : Counter) : (s.count d c).dies = s.dies := rfl
@[simp] theorem State.count_mem (s : State) (d : Nat) (c : Counter) : (s.count d c).mem = s.mem := rfl
@[simp] theorem State.count_poison (s : State) (d : Nat) (c : Counter) : (s.count d c).poison = s.poison := rfl
@[simp] theorem State.count_dir (s : State) (d : Nat) (c : Counter) : (s.count d c).dir = s.dir := rfl
@[simp] theorem State.count_cmds (s : State) (d : Nat) (c : Counter) : (s.count d c).cmds = s.cmds := rfl
@[simp] theorem State.count_triggers (s : State) (d : Nat) (c : Counter) : (s.count d c).triggers = s.triggers := rfl
@[simp] theorem State.count_waiting (s : State) (d : Nat) (c : Counter) : (s.count d c).waiting = s.waiting := rfl
@[simp] theorem State.count_queries (s : State) (d : Nat) (c : Counter) : (s.count d c).queries = s.queries := rfl
@[simp] theorem State.count_asked (s : State) (d : Nat) (c : Counter) : (s.count d c).asked = s.asked := rfl
@[simp] theorem State.count_kept (s : State) (d : Nat) (c : Counter) : (s.count d c).kept = s.kept := rfl
@[simp] theorem State.count_snoops (s : State) (d : Nat) (c : Counter) : (s.count d c).snoops = s.snoops := rfl
@[simp] theorem State.count_wanted (s : State) (d : Nat) (c : Counter) : (s.count d c).wanted = s.wanted := rfl
@[simp] theorem State.count_frozen (s : State) (d : Nat) (c : Counter) : (s.count d c).frozen = s.frozen := rfl
@[simp] theorem State.count_cogor (s : State) (d : Nat) (c : Counter) : (s.count d c).cogor = s.cogor := rfl
@[simp] theorem State.count_answer (s : State) (d : Nat) (c : Counter) : (s.count d c).answer = s.answer := rfl

@[simp] theorem State.writeG_cur (s : State) (r : Reg) (v : Word) : (s.writeG r v).cur = s.cur := rfl
@[simp] theorem State.writeG_plan (s : State) (r : Reg) (v : Word) : (s.writeG r v).plan = s.plan := rfl
@[simp] theorem State.writeG_tick (s : State) (r : Reg) (v : Word) : (s.writeG r v).tick = s.tick := rfl
@[simp] theorem State.writeG_clock (s : State) (r : Reg) (v : Word) : (s.writeG r v).clock = s.clock := rfl
@[simp] theorem State.writeG_nextId (s : State) (r : Reg) (v : Word) : (s.writeG r v).nextId = s.nextId := rfl
@[simp] theorem State.writeG_tiles (s : State) (r : Reg) (v : Word) : (s.writeG r v).tiles = s.tiles := rfl
@[simp] theorem State.writeG_dies (s : State) (r : Reg) (v : Word) : (s.writeG r v).dies = s.dies := rfl
@[simp] theorem State.writeG_mdies (s : State) (r : Reg) (v : Word) : (s.writeG r v).mdies = s.mdies := rfl
@[simp] theorem State.writeG_mem (s : State) (r : Reg) (v : Word) : (s.writeG r v).mem = s.mem := rfl
@[simp] theorem State.writeG_poison (s : State) (r : Reg) (v : Word) : (s.writeG r v).poison = s.poison := rfl
@[simp] theorem State.writeG_dir (s : State) (r : Reg) (v : Word) : (s.writeG r v).dir = s.dir := rfl
@[simp] theorem State.writeG_cmds (s : State) (r : Reg) (v : Word) : (s.writeG r v).cmds = s.cmds := rfl
@[simp] theorem State.writeG_triggers (s : State) (r : Reg) (v : Word) : (s.writeG r v).triggers = s.triggers := rfl
@[simp] theorem State.writeG_waiting (s : State) (r : Reg) (v : Word) : (s.writeG r v).waiting = s.waiting := rfl
@[simp] theorem State.writeG_queries (s : State) (r : Reg) (v : Word) : (s.writeG r v).queries = s.queries := rfl
@[simp] theorem State.writeG_asked (s : State) (r : Reg) (v : Word) : (s.writeG r v).asked = s.asked := rfl
@[simp] theorem State.writeG_kept (s : State) (r : Reg) (v : Word) : (s.writeG r v).kept = s.kept := rfl
@[simp] theorem State.writeG_snoops (s : State) (r : Reg) (v : Word) : (s.writeG r v).snoops = s.snoops := rfl
@[simp] theorem State.writeG_wanted (s : State) (r : Reg) (v : Word) : (s.writeG r v).wanted = s.wanted := rfl
@[simp] theorem State.writeG_frozen (s : State) (r : Reg) (v : Word) : (s.writeG r v).frozen = s.frozen := rfl
@[simp] theorem State.writeG_cogor (s : State) (r : Reg) (v : Word) : (s.writeG r v).cogor = s.cogor := rfl
@[simp] theorem State.writeG_answer (s : State) (r : Reg) (v : Word) : (s.writeG r v).answer = s.answer := rfl

@[simp] theorem State.retireTo_cur (s : State) (a : Word) : (s.retireTo a).cur = s.cur := rfl
@[simp] theorem State.retireTo_plan (s : State) (a : Word) : (s.retireTo a).plan = s.plan := rfl
@[simp] theorem State.retireTo_tick (s : State) (a : Word) : (s.retireTo a).tick = s.tick := rfl
@[simp] theorem State.retireTo_clock (s : State) (a : Word) : (s.retireTo a).clock = s.clock := rfl
@[simp] theorem State.retireTo_nextId (s : State) (a : Word) : (s.retireTo a).nextId = s.nextId := rfl
@[simp] theorem State.retireTo_tiles (s : State) (a : Word) : (s.retireTo a).tiles = s.tiles := rfl
@[simp] theorem State.retireTo_dies (s : State) (a : Word) : (s.retireTo a).dies = s.dies := rfl
@[simp] theorem State.retireTo_mdies (s : State) (a : Word) : (s.retireTo a).mdies = s.mdies := rfl
@[simp] theorem State.retireTo_mem (s : State) (a : Word) : (s.retireTo a).mem = s.mem := rfl
@[simp] theorem State.retireTo_poison (s : State) (a : Word) : (s.retireTo a).poison = s.poison := rfl
@[simp] theorem State.retireTo_dir (s : State) (a : Word) : (s.retireTo a).dir = s.dir := rfl
@[simp] theorem State.retireTo_cmds (s : State) (a : Word) : (s.retireTo a).cmds = s.cmds := rfl
@[simp] theorem State.retireTo_triggers (s : State) (a : Word) : (s.retireTo a).triggers = s.triggers := rfl
@[simp] theorem State.retireTo_waiting (s : State) (a : Word) : (s.retireTo a).waiting = s.waiting := rfl
@[simp] theorem State.retireTo_queries (s : State) (a : Word) : (s.retireTo a).queries = s.queries := rfl
@[simp] theorem State.retireTo_asked (s : State) (a : Word) : (s.retireTo a).asked = s.asked := rfl
@[simp] theorem State.retireTo_kept (s : State) (a : Word) : (s.retireTo a).kept = s.kept := rfl
@[simp] theorem State.retireTo_snoops (s : State) (a : Word) : (s.retireTo a).snoops = s.snoops := rfl
@[simp] theorem State.retireTo_wanted (s : State) (a : Word) : (s.retireTo a).wanted = s.wanted := rfl
@[simp] theorem State.retireTo_frozen (s : State) (a : Word) : (s.retireTo a).frozen = s.frozen := rfl
@[simp] theorem State.retireTo_cogor (s : State) (a : Word) : (s.retireTo a).cogor = s.cogor := rfl
@[simp] theorem State.retireTo_answer (s : State) (a : Word) : (s.retireTo a).answer = s.answer := rfl

@[simp] theorem State.retire_cur (s : State) : (s.retire).cur = s.cur := rfl
@[simp] theorem State.retire_plan (s : State) : (s.retire).plan = s.plan := rfl
@[simp] theorem State.retire_tick (s : State) : (s.retire).tick = s.tick := rfl
@[simp] theorem State.retire_clock (s : State) : (s.retire).clock = s.clock := rfl
@[simp] theorem State.retire_nextId (s : State) : (s.retire).nextId = s.nextId := rfl
@[simp] theorem State.retire_tiles (s : State) : (s.retire).tiles = s.tiles := rfl
@[simp] theorem State.retire_dies (s : State) : (s.retire).dies = s.dies := rfl
@[simp] theorem State.retire_mdies (s : State) : (s.retire).mdies = s.mdies := rfl
@[simp] theorem State.retire_mem (s : State) : (s.retire).mem = s.mem := rfl
@[simp] theorem State.retire_poison (s : State) : (s.retire).poison = s.poison := rfl
@[simp] theorem State.retire_dir (s : State) : (s.retire).dir = s.dir := rfl
@[simp] theorem State.retire_cmds (s : State) : (s.retire).cmds = s.cmds := rfl
@[simp] theorem State.retire_triggers (s : State) : (s.retire).triggers = s.triggers := rfl
@[simp] theorem State.retire_waiting (s : State) : (s.retire).waiting = s.waiting := rfl
@[simp] theorem State.retire_queries (s : State) : (s.retire).queries = s.queries := rfl
@[simp] theorem State.retire_asked (s : State) : (s.retire).asked = s.asked := rfl
@[simp] theorem State.retire_kept (s : State) : (s.retire).kept = s.kept := rfl
@[simp] theorem State.retire_snoops (s : State) : (s.retire).snoops = s.snoops := rfl
@[simp] theorem State.retire_wanted (s : State) : (s.retire).wanted = s.wanted := rfl
@[simp] theorem State.retire_frozen (s : State) : (s.retire).frozen = s.frozen := rfl
@[simp] theorem State.retire_cogor (s : State) : (s.retire).cogor = s.cogor := rfl
@[simp] theorem State.retire_answer (s : State) : (s.retire).answer = s.answer := rfl

@[simp] theorem State.setV_cur (s : State) (r : Reg) (v : VReg) : (s.setV r v).cur = s.cur := rfl
@[simp] theorem State.setV_plan (s : State) (r : Reg) (v : VReg) : (s.setV r v).plan = s.plan := rfl
@[simp] theorem State.setV_tick (s : State) (r : Reg) (v : VReg) : (s.setV r v).tick = s.tick := rfl
@[simp] theorem State.setV_clock (s : State) (r : Reg) (v : VReg) : (s.setV r v).clock = s.clock := rfl
@[simp] theorem State.setV_nextId (s : State) (r : Reg) (v : VReg) : (s.setV r v).nextId = s.nextId := rfl
@[simp] theorem State.setV_tiles (s : State) (r : Reg) (v : VReg) : (s.setV r v).tiles = s.tiles := rfl
@[simp] theorem State.setV_dies (s : State) (r : Reg) (v : VReg) : (s.setV r v).dies = s.dies := rfl
@[simp] theorem State.setV_mdies (s : State) (r : Reg) (v : VReg) : (s.setV r v).mdies = s.mdies := rfl
@[simp] theorem State.setV_mem (s : State) (r : Reg) (v : VReg) : (s.setV r v).mem = s.mem := rfl
@[simp] theorem State.setV_poison (s : State) (r : Reg) (v : VReg) : (s.setV r v).poison = s.poison := rfl
@[simp] theorem State.setV_dir (s : State) (r : Reg) (v : VReg) : (s.setV r v).dir = s.dir := rfl
@[simp] theorem State.setV_cmds (s : State) (r : Reg) (v : VReg) : (s.setV r v).cmds = s.cmds := rfl
@[simp] theorem State.setV_triggers (s : State) (r : Reg) (v : VReg) : (s.setV r v).triggers = s.triggers := rfl
@[simp] theorem State.setV_waiting (s : State) (r : Reg) (v : VReg) : (s.setV r v).waiting = s.waiting := rfl
@[simp] theorem State.setV_queries (s : State) (r : Reg) (v : VReg) : (s.setV r v).queries = s.queries := rfl
@[simp] theorem State.setV_asked (s : State) (r : Reg) (v : VReg) : (s.setV r v).asked = s.asked := rfl
@[simp] theorem State.setV_kept (s : State) (r : Reg) (v : VReg) : (s.setV r v).kept = s.kept := rfl
@[simp] theorem State.setV_snoops (s : State) (r : Reg) (v : VReg) : (s.setV r v).snoops = s.snoops := rfl
@[simp] theorem State.setV_wanted (s : State) (r : Reg) (v : VReg) : (s.setV r v).wanted = s.wanted := rfl
@[simp] theorem State.setV_frozen (s : State) (r : Reg) (v : VReg) : (s.setV r v).frozen = s.frozen := rfl
@[simp] theorem State.setV_cogor (s : State) (r : Reg) (v : VReg) : (s.setV r v).cogor = s.cogor := rfl
@[simp] theorem State.setV_answer (s : State) (r : Reg) (v : VReg) : (s.setV r v).answer = s.answer := rfl

@[simp] theorem State.setM_cur (s : State) (m : MReg) (v : Mask) : (s.setM m v).cur = s.cur := rfl
@[simp] theorem State.setM_plan (s : State) (m : MReg) (v : Mask) : (s.setM m v).plan = s.plan := rfl
@[simp] theorem State.setM_tick (s : State) (m : MReg) (v : Mask) : (s.setM m v).tick = s.tick := rfl
@[simp] theorem State.setM_clock (s : State) (m : MReg) (v : Mask) : (s.setM m v).clock = s.clock := rfl
@[simp] theorem State.setM_nextId (s : State) (m : MReg) (v : Mask) : (s.setM m v).nextId = s.nextId := rfl
@[simp] theorem State.setM_tiles (s : State) (m : MReg) (v : Mask) : (s.setM m v).tiles = s.tiles := rfl
@[simp] theorem State.setM_dies (s : State) (m : MReg) (v : Mask) : (s.setM m v).dies = s.dies := rfl
@[simp] theorem State.setM_mdies (s : State) (m : MReg) (v : Mask) : (s.setM m v).mdies = s.mdies := rfl
@[simp] theorem State.setM_mem (s : State) (m : MReg) (v : Mask) : (s.setM m v).mem = s.mem := rfl
@[simp] theorem State.setM_poison (s : State) (m : MReg) (v : Mask) : (s.setM m v).poison = s.poison := rfl
@[simp] theorem State.setM_dir (s : State) (m : MReg) (v : Mask) : (s.setM m v).dir = s.dir := rfl
@[simp] theorem State.setM_cmds (s : State) (m : MReg) (v : Mask) : (s.setM m v).cmds = s.cmds := rfl
@[simp] theorem State.setM_triggers (s : State) (m : MReg) (v : Mask) : (s.setM m v).triggers = s.triggers := rfl
@[simp] theorem State.setM_waiting (s : State) (m : MReg) (v : Mask) : (s.setM m v).waiting = s.waiting := rfl
@[simp] theorem State.setM_queries (s : State) (m : MReg) (v : Mask) : (s.setM m v).queries = s.queries := rfl
@[simp] theorem State.setM_asked (s : State) (m : MReg) (v : Mask) : (s.setM m v).asked = s.asked := rfl
@[simp] theorem State.setM_kept (s : State) (m : MReg) (v : Mask) : (s.setM m v).kept = s.kept := rfl
@[simp] theorem State.setM_snoops (s : State) (m : MReg) (v : Mask) : (s.setM m v).snoops = s.snoops := rfl
@[simp] theorem State.setM_wanted (s : State) (m : MReg) (v : Mask) : (s.setM m v).wanted = s.wanted := rfl
@[simp] theorem State.setM_frozen (s : State) (m : MReg) (v : Mask) : (s.setM m v).frozen = s.frozen := rfl
@[simp] theorem State.setM_cogor (s : State) (m : MReg) (v : Mask) : (s.setM m v).cogor = s.cogor := rfl
@[simp] theorem State.setM_answer (s : State) (m : MReg) (v : Mask) : (s.setM m v).answer = s.answer := rfl

@[simp] theorem State.raiseScalar_cur (s : State) (f : Flags) : (s.raiseScalar f).cur = s.cur := rfl
@[simp] theorem State.raiseScalar_plan (s : State) (f : Flags) : (s.raiseScalar f).plan = s.plan := rfl
@[simp] theorem State.raiseScalar_tick (s : State) (f : Flags) : (s.raiseScalar f).tick = s.tick := rfl
@[simp] theorem State.raiseScalar_clock (s : State) (f : Flags) : (s.raiseScalar f).clock = s.clock := rfl
@[simp] theorem State.raiseScalar_nextId (s : State) (f : Flags) : (s.raiseScalar f).nextId = s.nextId := rfl
@[simp] theorem State.raiseScalar_tiles (s : State) (f : Flags) : (s.raiseScalar f).tiles = s.tiles := rfl
@[simp] theorem State.raiseScalar_dies (s : State) (f : Flags) : (s.raiseScalar f).dies = s.dies := rfl
@[simp] theorem State.raiseScalar_mdies (s : State) (f : Flags) : (s.raiseScalar f).mdies = s.mdies := rfl
@[simp] theorem State.raiseScalar_mem (s : State) (f : Flags) : (s.raiseScalar f).mem = s.mem := rfl
@[simp] theorem State.raiseScalar_poison (s : State) (f : Flags) : (s.raiseScalar f).poison = s.poison := rfl
@[simp] theorem State.raiseScalar_dir (s : State) (f : Flags) : (s.raiseScalar f).dir = s.dir := rfl
@[simp] theorem State.raiseScalar_cmds (s : State) (f : Flags) : (s.raiseScalar f).cmds = s.cmds := rfl
@[simp] theorem State.raiseScalar_triggers (s : State) (f : Flags) : (s.raiseScalar f).triggers = s.triggers := rfl
@[simp] theorem State.raiseScalar_waiting (s : State) (f : Flags) : (s.raiseScalar f).waiting = s.waiting := rfl
@[simp] theorem State.raiseScalar_queries (s : State) (f : Flags) : (s.raiseScalar f).queries = s.queries := rfl
@[simp] theorem State.raiseScalar_asked (s : State) (f : Flags) : (s.raiseScalar f).asked = s.asked := rfl
@[simp] theorem State.raiseScalar_kept (s : State) (f : Flags) : (s.raiseScalar f).kept = s.kept := rfl
@[simp] theorem State.raiseScalar_snoops (s : State) (f : Flags) : (s.raiseScalar f).snoops = s.snoops := rfl
@[simp] theorem State.raiseScalar_wanted (s : State) (f : Flags) : (s.raiseScalar f).wanted = s.wanted := rfl
@[simp] theorem State.raiseScalar_frozen (s : State) (f : Flags) : (s.raiseScalar f).frozen = s.frozen := rfl
@[simp] theorem State.raiseScalar_cogor (s : State) (f : Flags) : (s.raiseScalar f).cogor = s.cogor := rfl
@[simp] theorem State.raiseScalar_answer (s : State) (f : Flags) : (s.raiseScalar f).answer = s.answer := rfl

@[simp] theorem State.raiseRetained_cur (s : State) (f : Flags) : (s.raiseRetained f).cur = s.cur := rfl
@[simp] theorem State.raiseRetained_plan (s : State) (f : Flags) : (s.raiseRetained f).plan = s.plan := rfl
@[simp] theorem State.raiseRetained_tick (s : State) (f : Flags) : (s.raiseRetained f).tick = s.tick := rfl
@[simp] theorem State.raiseRetained_clock (s : State) (f : Flags) : (s.raiseRetained f).clock = s.clock := rfl
@[simp] theorem State.raiseRetained_nextId (s : State) (f : Flags) : (s.raiseRetained f).nextId = s.nextId := rfl
@[simp] theorem State.raiseRetained_tiles (s : State) (f : Flags) : (s.raiseRetained f).tiles = s.tiles := rfl
@[simp] theorem State.raiseRetained_dies (s : State) (f : Flags) : (s.raiseRetained f).dies = s.dies := rfl
@[simp] theorem State.raiseRetained_mdies (s : State) (f : Flags) : (s.raiseRetained f).mdies = s.mdies := rfl
@[simp] theorem State.raiseRetained_mem (s : State) (f : Flags) : (s.raiseRetained f).mem = s.mem := rfl
@[simp] theorem State.raiseRetained_poison (s : State) (f : Flags) : (s.raiseRetained f).poison = s.poison := rfl
@[simp] theorem State.raiseRetained_dir (s : State) (f : Flags) : (s.raiseRetained f).dir = s.dir := rfl
@[simp] theorem State.raiseRetained_cmds (s : State) (f : Flags) : (s.raiseRetained f).cmds = s.cmds := rfl
@[simp] theorem State.raiseRetained_triggers (s : State) (f : Flags) : (s.raiseRetained f).triggers = s.triggers := rfl
@[simp] theorem State.raiseRetained_waiting (s : State) (f : Flags) : (s.raiseRetained f).waiting = s.waiting := rfl
@[simp] theorem State.raiseRetained_queries (s : State) (f : Flags) : (s.raiseRetained f).queries = s.queries := rfl
@[simp] theorem State.raiseRetained_asked (s : State) (f : Flags) : (s.raiseRetained f).asked = s.asked := rfl
@[simp] theorem State.raiseRetained_kept (s : State) (f : Flags) : (s.raiseRetained f).kept = s.kept := rfl
@[simp] theorem State.raiseRetained_snoops (s : State) (f : Flags) : (s.raiseRetained f).snoops = s.snoops := rfl
@[simp] theorem State.raiseRetained_wanted (s : State) (f : Flags) : (s.raiseRetained f).wanted = s.wanted := rfl
@[simp] theorem State.raiseRetained_frozen (s : State) (f : Flags) : (s.raiseRetained f).frozen = s.frozen := rfl
@[simp] theorem State.raiseRetained_cogor (s : State) (f : Flags) : (s.raiseRetained f).cogor = s.cogor := rfl
@[simp] theorem State.raiseRetained_answer (s : State) (f : Flags) : (s.raiseRetained f).answer = s.answer := rfl

@[simp] theorem State.setHalf_cur (s : State) (h : Nat) (x : Half) : (s.setHalf h x).cur = s.cur := rfl
@[simp] theorem State.setHalf_plan (s : State) (h : Nat) (x : Half) : (s.setHalf h x).plan = s.plan := rfl
@[simp] theorem State.setHalf_tick (s : State) (h : Nat) (x : Half) : (s.setHalf h x).tick = s.tick := rfl
@[simp] theorem State.setHalf_clock (s : State) (h : Nat) (x : Half) : (s.setHalf h x).clock = s.clock := rfl
@[simp] theorem State.setHalf_nextId (s : State) (h : Nat) (x : Half) : (s.setHalf h x).nextId = s.nextId := rfl
@[simp] theorem State.setHalf_strands (s : State) (h : Nat) (x : Half) : (s.setHalf h x).strands = s.strands := rfl
@[simp] theorem State.setHalf_tiles (s : State) (h : Nat) (x : Half) : (s.setHalf h x).tiles = s.tiles := rfl
@[simp] theorem State.setHalf_dies (s : State) (h : Nat) (x : Half) : (s.setHalf h x).dies = s.dies := rfl
@[simp] theorem State.setHalf_mdies (s : State) (h : Nat) (x : Half) : (s.setHalf h x).mdies = s.mdies := rfl
@[simp] theorem State.setHalf_mem (s : State) (h : Nat) (x : Half) : (s.setHalf h x).mem = s.mem := rfl
@[simp] theorem State.setHalf_poison (s : State) (h : Nat) (x : Half) : (s.setHalf h x).poison = s.poison := rfl
@[simp] theorem State.setHalf_cmds (s : State) (h : Nat) (x : Half) : (s.setHalf h x).cmds = s.cmds := rfl
@[simp] theorem State.setHalf_triggers (s : State) (h : Nat) (x : Half) : (s.setHalf h x).triggers = s.triggers := rfl
@[simp] theorem State.setHalf_waiting (s : State) (h : Nat) (x : Half) : (s.setHalf h x).waiting = s.waiting := rfl
@[simp] theorem State.setHalf_queries (s : State) (h : Nat) (x : Half) : (s.setHalf h x).queries = s.queries := rfl
@[simp] theorem State.setHalf_asked (s : State) (h : Nat) (x : Half) : (s.setHalf h x).asked = s.asked := rfl
@[simp] theorem State.setHalf_kept (s : State) (h : Nat) (x : Half) : (s.setHalf h x).kept = s.kept := rfl
@[simp] theorem State.setHalf_snoops (s : State) (h : Nat) (x : Half) : (s.setHalf h x).snoops = s.snoops := rfl
@[simp] theorem State.setHalf_wanted (s : State) (h : Nat) (x : Half) : (s.setHalf h x).wanted = s.wanted := rfl
@[simp] theorem State.setHalf_frozen (s : State) (h : Nat) (x : Half) : (s.setHalf h x).frozen = s.frozen := rfl
@[simp] theorem State.setHalf_cogor (s : State) (h : Nat) (x : Half) : (s.setHalf h x).cogor = s.cogor := rfl
@[simp] theorem State.setHalf_answer (s : State) (h : Nat) (x : Half) : (s.setHalf h x).answer = s.answer := rfl

@[simp] theorem State.addPoison_cur (s : State) (h : Nat) : (s.addPoison h).cur = s.cur := rfl
@[simp] theorem State.addPoison_plan (s : State) (h : Nat) : (s.addPoison h).plan = s.plan := rfl
@[simp] theorem State.addPoison_tick (s : State) (h : Nat) : (s.addPoison h).tick = s.tick := rfl
@[simp] theorem State.addPoison_clock (s : State) (h : Nat) : (s.addPoison h).clock = s.clock := rfl
@[simp] theorem State.addPoison_nextId (s : State) (h : Nat) : (s.addPoison h).nextId = s.nextId := rfl
@[simp] theorem State.addPoison_strands (s : State) (h : Nat) : (s.addPoison h).strands = s.strands := rfl
@[simp] theorem State.addPoison_tiles (s : State) (h : Nat) : (s.addPoison h).tiles = s.tiles := rfl
@[simp] theorem State.addPoison_dies (s : State) (h : Nat) : (s.addPoison h).dies = s.dies := rfl
@[simp] theorem State.addPoison_mdies (s : State) (h : Nat) : (s.addPoison h).mdies = s.mdies := rfl
@[simp] theorem State.addPoison_mem (s : State) (h : Nat) : (s.addPoison h).mem = s.mem := rfl
@[simp] theorem State.addPoison_dir (s : State) (h : Nat) : (s.addPoison h).dir = s.dir := rfl
@[simp] theorem State.addPoison_cmds (s : State) (h : Nat) : (s.addPoison h).cmds = s.cmds := rfl
@[simp] theorem State.addPoison_triggers (s : State) (h : Nat) : (s.addPoison h).triggers = s.triggers := rfl
@[simp] theorem State.addPoison_waiting (s : State) (h : Nat) : (s.addPoison h).waiting = s.waiting := rfl
@[simp] theorem State.addPoison_queries (s : State) (h : Nat) : (s.addPoison h).queries = s.queries := rfl
@[simp] theorem State.addPoison_asked (s : State) (h : Nat) : (s.addPoison h).asked = s.asked := rfl
@[simp] theorem State.addPoison_kept (s : State) (h : Nat) : (s.addPoison h).kept = s.kept := rfl
@[simp] theorem State.addPoison_snoops (s : State) (h : Nat) : (s.addPoison h).snoops = s.snoops := rfl
@[simp] theorem State.addPoison_wanted (s : State) (h : Nat) : (s.addPoison h).wanted = s.wanted := rfl
@[simp] theorem State.addPoison_frozen (s : State) (h : Nat) : (s.addPoison h).frozen = s.frozen := rfl
@[simp] theorem State.addPoison_cogor (s : State) (h : Nat) : (s.addPoison h).cogor = s.cogor := rfl
@[simp] theorem State.addPoison_answer (s : State) (h : Nat) : (s.addPoison h).answer = s.answer := rfl

@[simp] theorem State.storeRaw_cur (s : State) (p : Option Nat) (key : Nat) (bs : List Byte) : (s.storeRaw p key bs).cur = s.cur := rfl
@[simp] theorem State.storeRaw_plan (s : State) (p : Option Nat) (key : Nat) (bs : List Byte) : (s.storeRaw p key bs).plan = s.plan := rfl
@[simp] theorem State.storeRaw_tick (s : State) (p : Option Nat) (key : Nat) (bs : List Byte) : (s.storeRaw p key bs).tick = s.tick := rfl
@[simp] theorem State.storeRaw_clock (s : State) (p : Option Nat) (key : Nat) (bs : List Byte) : (s.storeRaw p key bs).clock = s.clock := rfl
@[simp] theorem State.storeRaw_nextId (s : State) (p : Option Nat) (key : Nat) (bs : List Byte) : (s.storeRaw p key bs).nextId = s.nextId := rfl
@[simp] theorem State.storeRaw_tiles (s : State) (p : Option Nat) (key : Nat) (bs : List Byte) : (s.storeRaw p key bs).tiles = s.tiles := rfl
@[simp] theorem State.storeRaw_dies (s : State) (p : Option Nat) (key : Nat) (bs : List Byte) : (s.storeRaw p key bs).dies = s.dies := rfl
@[simp] theorem State.storeRaw_mdies (s : State) (p : Option Nat) (key : Nat) (bs : List Byte) : (s.storeRaw p key bs).mdies = s.mdies := rfl
@[simp] theorem State.storeRaw_poison (s : State) (p : Option Nat) (key : Nat) (bs : List Byte) : (s.storeRaw p key bs).poison = s.poison := rfl
@[simp] theorem State.storeRaw_dir (s : State) (p : Option Nat) (key : Nat) (bs : List Byte) : (s.storeRaw p key bs).dir = s.dir := rfl
@[simp] theorem State.storeRaw_cmds (s : State) (p : Option Nat) (key : Nat) (bs : List Byte) : (s.storeRaw p key bs).cmds = s.cmds := rfl
@[simp] theorem State.storeRaw_triggers (s : State) (p : Option Nat) (key : Nat) (bs : List Byte) : (s.storeRaw p key bs).triggers = s.triggers := rfl
@[simp] theorem State.storeRaw_waiting (s : State) (p : Option Nat) (key : Nat) (bs : List Byte) : (s.storeRaw p key bs).waiting = s.waiting := rfl
@[simp] theorem State.storeRaw_queries (s : State) (p : Option Nat) (key : Nat) (bs : List Byte) : (s.storeRaw p key bs).queries = s.queries := rfl
@[simp] theorem State.storeRaw_asked (s : State) (p : Option Nat) (key : Nat) (bs : List Byte) : (s.storeRaw p key bs).asked = s.asked := rfl
@[simp] theorem State.storeRaw_kept (s : State) (p : Option Nat) (key : Nat) (bs : List Byte) : (s.storeRaw p key bs).kept = s.kept := rfl
@[simp] theorem State.storeRaw_snoops (s : State) (p : Option Nat) (key : Nat) (bs : List Byte) : (s.storeRaw p key bs).snoops = s.snoops := rfl
@[simp] theorem State.storeRaw_wanted (s : State) (p : Option Nat) (key : Nat) (bs : List Byte) : (s.storeRaw p key bs).wanted = s.wanted := rfl
@[simp] theorem State.storeRaw_frozen (s : State) (p : Option Nat) (key : Nat) (bs : List Byte) : (s.storeRaw p key bs).frozen = s.frozen := rfl
@[simp] theorem State.storeRaw_cogor (s : State) (p : Option Nat) (key : Nat) (bs : List Byte) : (s.storeRaw p key bs).cogor = s.cogor := rfl
@[simp] theorem State.storeRaw_answer (s : State) (p : Option Nat) (key : Nat) (bs : List Byte) : (s.storeRaw p key bs).answer = s.answer := rfl

@[simp] theorem State.sendTriggers_cur (s : State) (p : Option Asker) (l : List (Nat × Nat)) : (s.sendTriggers p l).cur = s.cur := rfl
@[simp] theorem State.sendTriggers_plan (s : State) (p : Option Asker) (l : List (Nat × Nat)) : (s.sendTriggers p l).plan = s.plan := rfl
@[simp] theorem State.sendTriggers_tick (s : State) (p : Option Asker) (l : List (Nat × Nat)) : (s.sendTriggers p l).tick = s.tick := rfl
@[simp] theorem State.sendTriggers_clock (s : State) (p : Option Asker) (l : List (Nat × Nat)) : (s.sendTriggers p l).clock = s.clock := rfl
@[simp] theorem State.sendTriggers_nextId (s : State) (p : Option Asker) (l : List (Nat × Nat)) : (s.sendTriggers p l).nextId = s.nextId := rfl
@[simp] theorem State.sendTriggers_strands (s : State) (p : Option Asker) (l : List (Nat × Nat)) : (s.sendTriggers p l).strands = s.strands := rfl
@[simp] theorem State.sendTriggers_tiles (s : State) (p : Option Asker) (l : List (Nat × Nat)) : (s.sendTriggers p l).tiles = s.tiles := rfl
@[simp] theorem State.sendTriggers_dies (s : State) (p : Option Asker) (l : List (Nat × Nat)) : (s.sendTriggers p l).dies = s.dies := rfl
@[simp] theorem State.sendTriggers_mdies (s : State) (p : Option Asker) (l : List (Nat × Nat)) : (s.sendTriggers p l).mdies = s.mdies := rfl
@[simp] theorem State.sendTriggers_mem (s : State) (p : Option Asker) (l : List (Nat × Nat)) : (s.sendTriggers p l).mem = s.mem := rfl
@[simp] theorem State.sendTriggers_poison (s : State) (p : Option Asker) (l : List (Nat × Nat)) : (s.sendTriggers p l).poison = s.poison := rfl
@[simp] theorem State.sendTriggers_dir (s : State) (p : Option Asker) (l : List (Nat × Nat)) : (s.sendTriggers p l).dir = s.dir := rfl
@[simp] theorem State.sendTriggers_cmds (s : State) (p : Option Asker) (l : List (Nat × Nat)) : (s.sendTriggers p l).cmds = s.cmds := rfl
@[simp] theorem State.sendTriggers_waiting (s : State) (p : Option Asker) (l : List (Nat × Nat)) : (s.sendTriggers p l).waiting = s.waiting := rfl
@[simp] theorem State.sendTriggers_queries (s : State) (p : Option Asker) (l : List (Nat × Nat)) : (s.sendTriggers p l).queries = s.queries := rfl
@[simp] theorem State.sendTriggers_asked (s : State) (p : Option Asker) (l : List (Nat × Nat)) : (s.sendTriggers p l).asked = s.asked := rfl
@[simp] theorem State.sendTriggers_kept (s : State) (p : Option Asker) (l : List (Nat × Nat)) : (s.sendTriggers p l).kept = s.kept := rfl
@[simp] theorem State.sendTriggers_snoops (s : State) (p : Option Asker) (l : List (Nat × Nat)) : (s.sendTriggers p l).snoops = s.snoops := rfl
@[simp] theorem State.sendTriggers_wanted (s : State) (p : Option Asker) (l : List (Nat × Nat)) : (s.sendTriggers p l).wanted = s.wanted := rfl
@[simp] theorem State.sendTriggers_frozen (s : State) (p : Option Asker) (l : List (Nat × Nat)) : (s.sendTriggers p l).frozen = s.frozen := rfl
@[simp] theorem State.sendTriggers_cogor (s : State) (p : Option Asker) (l : List (Nat × Nat)) : (s.sendTriggers p l).cogor = s.cogor := rfl
@[simp] theorem State.sendTriggers_answer (s : State) (p : Option Asker) (l : List (Nat × Nat)) : (s.sendTriggers p l).answer = s.answer := rfl

/-! ## Parts after a part is replaced -/

@[simp] theorem State.strand_setStrand_same (s : State) (k : Nat) (x : Strand) : (s.setStrand k x).strand k = x := by
  simp [State.strand, State.setStrand]

theorem State.strand_setStrand_other (s : State) {k j : Nat} (x : Strand) (h : j ≠ k) :
    (s.setStrand k x).strand j = s.strand j := by
  simp [State.strand, State.setStrand, Table.find_put_other _ _ _ h, State.hvecOf]

@[simp] theorem State.setStrand_setStrand (s : State) (k : Nat) (x y : Strand) :
    (s.setStrand k x).setStrand k y = s.setStrand k y := by
  simp [State.setStrand, Table.put_put]

@[simp] theorem State.strand_setTile (s : State) (n k : Nat) (x : Tile) : (s.setTile n x).strand k = s.strand k := rfl

@[simp] theorem State.strand_mapTile (s : State) (n k : Nat) (f : Tile → Tile) : (s.mapTile n f).strand k = s.strand k := rfl

@[simp] theorem State.tile_setStrand (s : State) (k n : Nat) (x : Strand) : (s.setStrand k x).tile n = s.tile n := rfl

@[simp] theorem State.tile_mapMe (s : State) (n : Nat) (f : Strand → Strand) : (s.mapMe f).tile n = s.tile n := rfl

@[simp] theorem State.tile_setTile_same (s : State) (n : Nat) (x : Tile) : (s.setTile n x).tile n = x := by
  simp [State.tile, State.setTile]

theorem State.tile_setTile_other (s : State) {n m : Nat} (x : Tile) (h : m ≠ n) : (s.setTile n x).tile m = s.tile m := by
  simp [State.tile, State.setTile, Table.find_put_other _ _ _ h]

@[simp] theorem State.me_setStrand_cur (s : State) (x : Strand) : (s.setStrand s.cur x).me = x := by
  simp [State.me]

@[simp] theorem State.me_mapMe (s : State) (f : Strand → Strand) : (s.mapMe f).me = f s.me := by
  simp [State.mapMe, State.me]

theorem State.strand_mapMe_other (s : State) {j : Nat} (f : Strand → Strand) (h : j ≠ s.cur) :
    (s.mapMe f).strand j = s.strand j := State.strand_setStrand_other s _ h

@[simp] theorem State.mapMe_mapMe (s : State) (f g : Strand → Strand) : (s.mapMe f).mapMe g = s.mapMe fun x => g (f x) := by
  simp [State.mapMe]

@[simp] theorem State.me_mapTile (s : State) (n : Nat) (f : Tile → Tile) : (s.mapTile n f).me = s.me := rfl

@[simp] theorem State.myTile_mapMe (s : State) (f : Strand → Strand) : (s.mapMe f).myTile = s.myTile := rfl

/-! ## General registers -/

@[simp] theorem Strand.readG_zero (x : Strand) : x.readG 0 = 0 := rfl

theorem Strand.readG_writeG_same (x : Strand) (r : Reg) (v : Word) :
    (x.writeG r v).readG r = if r = 0 then 0 else v := by
  unfold Strand.readG Strand.writeG
  split
  · rfl
  · exact Vector.getElem_set_self _

theorem Strand.readG_writeG_other (x : Strand) {r d : Reg} (v : Word) (h : r ≠ d) :
    (x.writeG d v).readG r = x.readG r := by
  unfold Strand.readG Strand.writeG
  by_cases hr : r = 0
  · rw [if_pos hr, if_pos hr]
  · rw [if_neg hr, if_neg hr]
    by_cases hd : d = 0
    · rw [if_pos hd]
    · rw [if_neg hd]
      exact Vector.getElem_set_ne (i := d.toNat) (j := r.toNat) d.isLt r.isLt fun e => h (BitVec.eq_of_toNat_eq e.symm)

@[simp] theorem Strand.writeG_zero (x : Strand) (v : Word) : x.writeG 0 v = x := rfl

end Sys2Proof.Machine
end

