-- ==== Sys2Proof/Laws/Memory.lean ====
section
/-!
SUPPORT. Laws of memory: what a byte reads as after a write, and that every operation keeps the canonical form.
-/

namespace Sys2Proof.Machine

/-! ## Read after write -/

theorem memGet_memPut_same (m : List Host.Cell) (a : Nat) (b : Byte) : memGet (memPut m a b) a = b := by
  induction m with
  | nil => simp [memPut, memGet]
  | cons c r ih =>
    obtain ⟨a', b'⟩ := c
    simp only [memPut]
    split
    · simp [memGet]
    · split
      · simp [memGet]
      · simp_all [memGet]

theorem memGet_memPut_other (m : List Host.Cell) {a x : Nat} (b : Byte) (h : x ≠ a) :
    memGet (memPut m a b) x = memGet m x := by
  induction m with
  | nil => simp [memPut, memGet, h]
  | cons c r ih =>
    obtain ⟨a', b'⟩ := c
    simp only [memPut]
    split
    · simp [memGet, h]
    · split
      · next h2 => subst h2; simp [memGet, h]
      · simp only [memGet, ih]

theorem memGet_filter (m : List Host.Cell) (keep : Nat → Bool) (x : Nat) :
    memGet (m.filter fun c => keep c.1) x = if keep x then memGet m x else 0 := by
  induction m with
  | nil => simp [memGet]
  | cons c r ih =>
    obtain ⟨a, b⟩ := c
    by_cases hk : keep a <;> by_cases hx : x = a
    · subst hx; simp [memGet, hk]
    · simp [memGet, hk, ih, hx]
    · subst hx; simp [ih, hk]
    · simp [memGet, hk, ih, hx]

/-- A byte written reads as written. -/
theorem memGet_memSet_same (m : List Host.Cell) (a : Nat) (b : Byte) : memGet (memSet m a b) a = b := by
  unfold memSet
  split
  · next h => rw [memGet_filter m (fun x => x != a)]; simp [h]
  · exact memGet_memPut_same m a b

/-- No other byte changes. -/
theorem memGet_memSet_other (m : List Host.Cell) {a x : Nat} (b : Byte) (h : x ≠ a) :
    memGet (memSet m a b) x = memGet m x := by
  unfold memSet
  split
  · rw [memGet_filter m (fun x => x != a)]; simp [h]
  · exact memGet_memPut_other m b h

/-- Bytes outside the span written stay. -/
theorem memGet_memSetBytes_outside (bs : List Byte) : ∀ (m : List Host.Cell) (a x : Nat),
    x < a ∨ a + bs.length ≤ x → memGet (memSetBytes m a bs) x = memGet m x := by
  induction bs with
  | nil => intro m a x _; rfl
  | cons b bs ih =>
    intro m a x h
    simp only [List.length_cons] at h
    rw [memSetBytes, ih _ _ _ (by omega), memGet_memSet_other _ _ (by omega)]

/-- Byte i of the span written reads as byte i of the list. -/
theorem memGet_memSetBytes_inside (bs : List Byte) : ∀ (m : List Host.Cell) (a i : Nat) (h : i < bs.length),
    memGet (memSetBytes m a bs) (a + i) = bs[i] := by
  induction bs with
  | nil => intro m a i h; simp at h
  | cons b bs ih =>
    intro m a i h
    rw [memSetBytes]
    cases i with
    | zero =>
      rw [memGet_memSetBytes_outside _ _ _ _ (by omega)]
      exact memGet_memSet_same m a b
    | succ i =>
      have := ih (memSet m a b) (a + 1) i (by simpa using h)
      simpa [Nat.add_assoc, Nat.add_comm 1 i] using this

@[simp] theorem leBytes_length (n x : Nat) : (leBytes n x).length = n := by
  induction n generalizing x with
  | zero => rfl
  | succ n ih => simp [leBytes, ih]

/-- Byte i of the little-endian bytes of x. -/
theorem leBytes_getElem (n x i : Nat) (h : i < (leBytes n x).length) :
    (leBytes n x)[i] = BitVec.ofNat 8 (x / 256 ^ i) := by
  induction n generalizing x i with
  | zero => simp [leBytes] at h
  | succ n ih =>
    cases i with
    | zero => simp [leBytes]
    | succ i =>
      simp only [leBytes, List.getElem_cons_succ]
      rw [ih (x / 256) i (by simpa [leBytes] using h), Nat.div_div_eq_div_mul, Nat.pow_succ', Nat.mul_comm]

/-! ## The canonical form -/

theorem Memory.wf_cons {a : Nat} {b : Byte} {r : List Host.Cell} :
    Memory.wf ((a, b) :: r) = true ↔ b ≠ 0 ∧ (∀ c ∈ r, a < c.1) ∧ Memory.wf r = true := by
  simp [Memory.wf, and_assoc]

theorem memPut_mem {m : List Host.Cell} {a : Nat} {b : Byte} {c : Host.Cell} (h : c ∈ memPut m a b) :
    c = (a, b) ∨ c ∈ m := by
  induction m with
  | nil => simpa [memPut] using h
  | cons d r ih =>
    obtain ⟨a', b'⟩ := d
    simp only [memPut] at h
    split at h
    · simpa using h
    · split at h
      · rcases List.mem_cons.1 h with h | h
        · exact .inl h
        · exact .inr (by simp [h])
      · rcases List.mem_cons.1 h with h | h
        · exact .inr (by simp [h])
        · rcases ih h with h | h
          · exact .inl h
          · exact .inr (by simp [h])

theorem memPut_wf {m : List Host.Cell} {a : Nat} {b : Byte} (hb : b ≠ 0) (h : Memory.wf m = true) :
    Memory.wf (memPut m a b) = true := by
  induction m with
  | nil => exact Memory.wf_cons.2 ⟨hb, by simp, rfl⟩
  | cons d r ih =>
    obtain ⟨a', b'⟩ := d
    obtain ⟨h1, h2, h3⟩ := Memory.wf_cons.1 h
    simp only [memPut]
    split
    · next hl =>
      refine Memory.wf_cons.2 ⟨hb, ?_, h⟩
      intro c hc
      rcases List.mem_cons.1 hc with hc | hc
      · subst hc; exact hl
      · exact Nat.lt_trans hl (h2 c hc)
    · split
      · next he => subst he; exact Memory.wf_cons.2 ⟨hb, h2, h3⟩
      · next hl he =>
        refine Memory.wf_cons.2 ⟨h1, ?_, ih h3⟩
        intro c hc
        rcases memPut_mem hc with hc | hc
        · subst hc; simp only; omega
        · exact h2 c hc

theorem filter_wf {m : List Host.Cell} (keep : Host.Cell → Bool) (h : Memory.wf m = true) :
    Memory.wf (m.filter keep) = true := by
  induction m with
  | nil => rfl
  | cons d r ih =>
    obtain ⟨a', b'⟩ := d
    obtain ⟨h1, h2, h3⟩ := Memory.wf_cons.1 h
    rw [List.filter_cons]
    split
    · exact Memory.wf_cons.2 ⟨h1, fun c hc => h2 c (List.mem_filter.1 hc).1, ih h3⟩
    · exact ih h3

/-- One byte written keeps the canonical form. -/
theorem memSet_wf {m : List Host.Cell} (a : Nat) (b : Byte) (h : Memory.wf m = true) :
    Memory.wf (memSet m a b) = true := by
  unfold memSet
  split
  · exact filter_wf _ h
  · next hb => exact memPut_wf hb h

/-- Bytes written keep the canonical form. -/
theorem memSetBytes_wf (bs : List Byte) : ∀ {m : List Host.Cell} (a : Nat),
    Memory.wf m = true → Memory.wf (memSetBytes m a bs) = true := by
  induction bs with
  | nil => intro m a h; exact h
  | cons b bs ih => intro m a h; exact ih (a + 1) (memSet_wf a b h)

/-- Two memories in canonical form that read the same at every address are the same list. -/
theorem Memory.ext {m n : List Host.Cell} (hm : Memory.wf m = true) (hn : Memory.wf n = true)
    (h : ∀ a, memGet m a = memGet n a) : m = n := by
  have below : ∀ {l : List Host.Cell} {x : Nat}, (∀ c ∈ l, x < c.1) → memGet l x = 0 := by
    intro l x hl
    induction l with
    | nil => rfl
    | cons c r ih =>
      obtain ⟨a, b⟩ := c
      have h1 := hl (a, b) (by simp)
      simp only [memGet, if_neg (Nat.ne_of_lt h1)]
      exact ih fun c hc => hl c (by simp [hc])
  induction m generalizing n with
  | nil =>
    cases n with
    | nil => rfl
    | cons c r =>
      obtain ⟨a, b⟩ := c
      have := h a
      simp [memGet] at this
      exact absurd this.symm (Memory.wf_cons.1 hn).1
  | cons c r ih =>
    obtain ⟨a, b⟩ := c
    obtain ⟨b0, ha, hr⟩ := Memory.wf_cons.1 hm
    cases n with
    | nil =>
      have := h a
      simp [memGet] at this
      exact absurd this b0
    | cons c' r' =>
      obtain ⟨a', b'⟩ := c'
      obtain ⟨b0', ha', hr'⟩ := Memory.wf_cons.1 hn
      have hab : a = a' := by
        rcases Nat.lt_trichotomy a a' with hl | he | hl
        · have := h a
          have hz : memGet ((a', b') :: r') a = 0 := below (l := (a', b') :: r') fun c hc => by
            rcases List.mem_cons.1 hc with hc | hc
            · subst hc; exact hl
            · exact Nat.lt_trans hl (ha' c hc)
          rw [hz] at this
          simp [memGet] at this
          exact absurd this b0
        · exact he
        · have := h a'
          have hz : memGet ((a, b) :: r) a' = 0 := below (l := (a, b) :: r) fun c hc => by
            rcases List.mem_cons.1 hc with hc | hc
            · subst hc; exact hl
            · exact Nat.lt_trans hl (ha c hc)
          rw [hz] at this
          simp [memGet] at this
          exact absurd this.symm b0'
      subst hab
      have hb : b = b' := by simpa [memGet] using h a
      subst hb
      congr 1
      refine ih hr hr' fun x => ?_
      by_cases hx : x = a
      · subst hx; rw [below ha, below ha']
      · simpa [memGet, hx] using h x

/-! ## The operations of the machine that replace memory -/

theorem State.storeRaw_wf (s : State) (p : Option Nat) (key : Nat) (bs : List Byte) (h : Memory.wf s.mem = true) :
    Memory.wf (s.storeRaw p key bs).mem = true := memSetBytes_wf bs key h

@[simp] theorem State.store_mem (s : State) (p : Option Asker) (key : Nat) (bs : List Byte) :
    (s.store p key bs).mem = memSetBytes s.mem key bs := by
  unfold State.store
  split <;> rfl

theorem State.store_wf (s : State) (p : Option Asker) (key : Nat) (bs : List Byte) (h : Memory.wf s.mem = true) :
    Memory.wf (s.store p key bs).mem = true := by
  rw [State.store_mem]
  exact memSetBytes_wf bs key h

theorem State.scrubShare_wf (s : State) (f : FrozenShare) (h : Memory.wf s.mem = true) :
    Memory.wf (s.scrubShare f).mem = true := filter_wf _ h

theorem State.withFetchWord_wf (s : State) (n w : Nat) (h : Memory.wf s.mem = true) :
    Memory.wf (s.withFetchWord n w).mem = true := memSetBytes_wf _ _ h

@[simp] theorem State.unpoison_mem (s : State) (l : List (Nat × Nat)) : (s.unpoison l).mem = s.mem := by
  unfold State.unpoison
  split <;> rfl

theorem State.dumpWrite_wf (s : State) (off : Nat) (bs : List Byte) (h : Memory.wf s.mem = true) :
    Memory.wf (s.dumpWrite off bs).mem = true := by
  exact memSetBytes_wf _ _ h

theorem State.zeroMemory_wf (s : State) (h : Memory.wf s.mem = true) : Memory.wf s.zeroMemory.mem = true :=
  filter_wf _ h

theorem State.reset_wf : Memory.wf State.reset.mem = true := rfl

end Sys2Proof.Machine
end

