-- ==== Sys2Proof/Laws/Ops.lean ====
section
/-!
SUPPORT. One lemma for each shared operation, saying all that it can do.
-/

namespace Sys2Proof.Machine

/-- A change of the issuing strand changes nothing else. -/
theorem State.mapMe_only (s : State) (f : Strand → Strand) : OnlyStrand s.cur s (s.mapMe f) :=
  ⟨rfl, fun _ h => State.strand_mapMe_other s f h, fun _ => rfl⟩

theorem State.writeRetire_eq (s : State) (d : Reg) (v : Word) :
    s.writeRetire d v = s.mapMe fun x => { (x.writeG d v).retired with pc := x.pc + 4 } := by
  have h : (s.me.writeG d v).pc = s.me.pc := by unfold Strand.writeG; split <;> rfl
  simp [State.writeRetire, State.retire, State.retireTo, State.writeG, State.mapMe, h]

theorem State.retire_eq (s : State) : s.retire = s.mapMe fun x => { x.retired with pc := x.pc + 4 } := rfl

theorem Strand.retired_writeG (x : Strand) (d : Reg) (v a : Word) :
    { (x.writeG d v).retired with pc := a } = { x.retired with g := (x.writeG d v).g, pc := a } := by
  unfold Strand.writeG
  split <;> rfl

/-- A value into a g register, next instruction: only that register of the issuing strand differs. -/
theorem State.writeRetire_spec (s : State) (d : Reg) (v : Word) :
    SetsG d v s (s.writeRetire d v) ∧ OnlyStrand s.cur s (s.writeRetire d v) := by
  rw [State.writeRetire_eq]
  refine ⟨⟨?_, fun r hr => ?_, ?_⟩, s.mapMe_only _⟩
  · rw [State.readG, State.me_mapMe]
    exact Strand.readG_writeG_same s.me d v
  · rw [State.readG, State.me_mapMe]
    exact Strand.readG_writeG_other s.me v hr
  · rw [State.me_mapMe, Strand.retired_writeG]

theorem State.setNext_goes (s : State) (d : Reg) (v : Word) :
    Goes (s.setNext d v) fun t => SetsG d v s t ∧ OnlyStrand s.cur s t := ⟨_, rfl, s.writeRetire_spec d v⟩

/-- Retiring to an address: only the pc and what retiring uses up differ. -/
theorem State.retireTo_spec (s : State) (a : Word) : RetiresTo a s (s.retireTo a) ∧ OnlyStrand s.cur s (s.retireTo a) :=
  ⟨by simp [RetiresTo, State.retireTo], s.mapMe_only _⟩

/-- Taking a trap while TA is 0 (R238). -/
theorem State.enterTrap_spec (s : State) (t0 : Trap) (h : s.me.ta = false) :
    TakesTrap t0 s (s.enterTrap t0) ∧ OnlyStrand s.cur s (s.enterTrap t0) := by
  have e : s.enterTrap t0 = s.mapMe fun x => x.trapped t0 := by
    have h' : (s.strand s.cur).ta = false := h
    simp [State.enterTrap, State.enterTrapOf, h', State.mapMe, State.me]
  rw [e]
  exact ⟨by simp [TakesTrap], s.mapMe_only _⟩

/-- The move before which a strand stands back is one of the schedule's, of this cycle, of a lower-numbered strand of its tile (R20). -/
theorem State.before_spec (s : State) (k : Nat) (same : IWord → Bool) (retries : Bool) {m : Move}
    (h : s.before k same retries = some m) :
    m ∈ s.sameCycle (dieOfStrand k) ∧ ∃ j, j < k ∧ j / 4 = k / 4 ∧ s.allocates same retries j m = true := by
  obtain ⟨j, hj, hm⟩ := List.exists_of_findSome?_eq_some h
  simp only [List.mem_map, List.mem_range] at hj
  obtain ⟨i, hi, rfl⟩ := hj
  exact ⟨List.mem_of_find?_eq_some hm, _, by omega, by omega, List.find?_some hm⟩

/-- An element or row that has been performed lets its translations go, and nothing else (R171, R198). -/
theorem State.unhold_spec (s : State) (tag : Nat) :
    (s.unhold tag).me = { s.me with kept := s.me.kept.filter fun y => y.1 != tag } ∧ OnlyStrand s.cur s (s.unhold tag) := by
  unfold State.unhold
  split
  · have h : s.me.kept = [] := by simpa using ‹s.me.kept.isEmpty = true›
    exact ⟨by rw [h, List.filter_nil, ← h], rfl, fun _ _ => rfl, fun _ => rfl⟩
  · exact ⟨by simp, s.mapMe_only _⟩

/-- An undone firing gives a token back to the head of its channel (R271). -/
theorem Cell.giveBack_spec (c : Cell) (x : Nat × Token) :
    c.giveBack x = { c with inq := (c.giveBack x).inq, given := x.1 :: c.given } := rfl

/-- A strand may issue exactly where it has not, and where fewer than two strands of its tile have (R20). -/
theorem mayIssue_iff (used : List Nat) (k : Nat) :
    mayIssue used k = true ↔ k ∉ used ∧ (used.filter fun j => tileOf j == tileOf k).length < 2 := by
  simp [mayIssue]

/-- A deferred error changes what is pending and nothing else, and its error is last among those pending or those of the access under
way (R172, R239). -/
theorem Strand.defer_spec (x : Strand) (c : BitVec 8) (a : Word) :
    x.defer c a = { x with pend := (x.defer c a).pend } ∧
    ((x.defer c a).pend.deferred = x.pend.deferred ++ [(c, a)] ∧ (x.defer c a).pend.late = x.pend.late ∨
     (x.defer c a).pend.late = x.pend.late ++ [(c, a)] ∧ (x.defer c a).pend.deferred = x.pend.deferred) := by
  unfold Strand.defer
  split
  · exact ⟨rfl, .inr ⟨rfl, rfl⟩⟩
  · exact ⟨rfl, .inl ⟨rfl, rfl⟩⟩

/-- That a gang has become complete moves entries of a resume queue and takes none out (R382). -/
theorem State.queueGang_perm (s : State) (g : Nat) (d : Fin 4) :
    List.Perm ((s.queueGang g).dies[d].resumeq) (s.dies[d].resumeq) := by
  unfold State.queueGang
  split
  · exact .refl _
  · simpa using (List.perm_append_comm).trans (List.filter_append_perm (fun r => r.isOf g) s.dies[d].resumeq)

end Sys2Proof.Machine
end

