-- ==== Sys2Proof/Tests/Slice0.lean ====
section
/-!
SUPPORT. The tests: ill-formed terms that the check refuses, words written out from the spec's encodings, results worked out
by hand from the spec's entries, and for every statement with hypotheses a state and operands that meet them.
-/

namespace Sys2Proof.Tests

open Sys2Proof Machine

set_option maxRecDepth 20000
set_option Elab.async false

/-! ## Ill-formed terms -/

/-- An atomic without an ordering that names a scope (R112). -/
theorem test_wf_atomics :
    ∀ i ∈ ([.lr ⟨.none, true, 1⟩ 1 2, .sc ⟨.none, true, 1⟩ 1 2 3, .amoswap ⟨.none, true, 1⟩ 1 2 3,
      .amoadd ⟨.none, true, 1⟩ 1 2 3, .amoand ⟨.none, true, 1⟩ 1 2 3, .amoor ⟨.none, true, 1⟩ 1 2 3,
      .amoxor ⟨.none, true, 1⟩ 1 2 3, .amomin ⟨.none, true, 1⟩ 1 2 3, .amomax ⟨.none, true, 1⟩ 1 2 3,
      .amominu ⟨.none, true, 1⟩ 1 2 3, .amomaxu ⟨.none, true, 1⟩ 1 2 3, .amocas ⟨.none, true, 1⟩ 1 2 3] : List Instr),
    i.wf = false := by decide +kernel

/-- Segments of one field, and segments past v31 (R165). -/
theorem test_wf_segments :
    ∀ i ∈ ([.vlseg .w8 0 4 1 ⟨false, 0⟩, .vlseg .w8 2 30 1 ⟨false, 0⟩, .vsseg .w64 0 4 1 ⟨false, 0⟩,
      .vsseg .w64 7 25 1 ⟨false, 0⟩] : List Instr), i.wf = false := by decide +kernel

/-- A conversion of a type into itself (R158). -/
theorem test_wf_conversion : (Instr.vcvt (.iToI .s8 .narrow) 1 2 ⟨false, 0⟩).wf = false := by decide +kernel

/-- Tiles from 640, cells from 64 and ports from 16 on (R18, R221, R245). -/
theorem test_wf_tiles :
    ∀ i ∈ ([.trellisCycle 640 [], .cellAccessDone 640 0, .cellAccessDone 0 64, .streamPush 640 0, .streamPush 0 16,
      .writePortStore 640 0, .writePortStore 0 16, .streamFault 640 0, .streamFault 0 16, .streamRelease 640 0,
      .streamRelease 0 16, .reservationSplit 640 0, .reservationSplit 0 16, .deadlockDetect 640, .fabricFreeze 640,
      .fabricSave 640] : List Instr), i.wf = false := by decide +kernel

/-- Strands from 2,560 on (R18). -/
theorem test_wf_strands :
    ∀ i ∈ ([.engineAccept 2560, .trainAck 2560, .deferredError 2560 true 0, .remoteTimeout 2560 true, .asyncTrap 2560,
      .setvlRetry 2560, .waitaWake 2560, .waitaTimeout 2560, .endProceed 2560, .tswapProceed 2560,
      .lrReservationExpire 2560, .preemptForce 2560, .suspendSave 2560, .pageWalk 2560 0 .load, .vectorQueueAdvance 2560,
      .accessPerformed 2560] : List Instr), i.wf = false := by decide +kernel

/-- Dies from 4 on, words of PREQ from 10 on, watchdogs from 8 on (R1, R375, R410). -/
theorem test_wf_dies :
    ∀ i ∈ ([.dispatchPlace 4, .agingPromote 4 0, .gangReserve 4 0, .queueSlotFree 4, .preq 4 0 0, .preq 0 10 0,
      .resumePlace 4, .bootlr 4 0, .hvec 4 0, .watchdogExpire 8, .governorWindow 4 0 0, .getSensorReading 4 0] :
      List Instr), i.wf = false := by decide +kernel

/-- Soft errors in units that the module does not have, a third copy of an activation, and a peer from 64 on (R275, R416,
R419). -/
theorem test_wf_fleet :
    ∀ i ∈ ([.softError (.cleanCopy 4 true), .softError (.dirtyCopy 4 0 true true), .softError (.fetchLine 4),
      .softError (.registers 2560 true), .softError (.directory 4 false true), .softError (.dispatcher 4 true),
      .activateFirmware 3, .cxlMemRead (.peer 64) 0 1 .n, .cxlMemWrite (.peer 64) 0 [0] false] : List Instr),
    i.wf = false := by decide +kernel

/-! ## Words written out bit by bit -/

/-- Integer words: RRR is [31:26] major, d, a, b, [10:0] minor; I16 is major, d, a, imm (R106, R118 to R125). -/
theorem test_decode_scalar_integer :
    ∀ p ∈ ([(0b000001_10011_10101_01010_00000000000, .add 19 21 10),
      (0b000001_10011_10101_01010_00000000001, .sub 19 21 10),
      (0b000001_10011_10101_01010_00000000010, .and 19 21 10),
      (0b000001_10011_10101_01010_00000000011, .or 19 21 10),
      (0b000001_10011_10101_01010_00000000100, .xor 19 21 10),
      (0b000001_10011_10101_01010_00000000101, .nor 19 21 10),
      (0b000001_10011_10101_01010_00000000110, .andn 19 21 10),
      (0b000001_10011_10101_01010_00000000111, .orn 19 21 10),
      (0b000001_10011_10101_01010_00000001000, .sll 19 21 10),
      (0b000001_10011_10101_01010_00000001001, .srl 19 21 10),
      (0b000001_10011_10101_01010_00000001010, .sra 19 21 10),
      (0b000001_10011_10101_01010_00000001011, .ror 19 21 10),
      (0b000001_10011_10101_01010_00000001100, .setlt 19 21 10),
      (0b000001_10011_10101_01010_00000001101, .setltn 19 21 10),
      (0b000001_10011_10101_01010_00000001110, .seteq 19 21 10),
      (0b000001_10011_10101_01010_00000001111, .setne 19 21 10),
      (0b000001_10011_10101_01010_00000010000, .min 19 21 10),
      (0b000001_10011_10101_01010_00000010001, .max 19 21 10),
      (0b000001_10011_10101_01010_00000010010, .minu 19 21 10),
      (0b000001_10011_10101_01010_00000010011, .maxu 19 21 10),
      (0b000001_10011_10101_01010_00000010100, .add32 19 21 10),
      (0b000001_10011_10101_01010_00000010101, .sub32 19 21 10),
      (0b000001_10011_10101_01010_00000010110, .sll32 19 21 10),
      (0b000001_10011_10101_01010_00000010111, .srl32 19 21 10),
      (0b000001_10011_10101_01010_00000011000, .sra32 19 21 10),
      (0b000001_10011_10101_01010_00000011001, .addo 19 21 10),
      (0b000001_10011_10101_01010_00000011010, .subo 19 21 10),
      (0b000001_10011_10101_01010_00000011011, .addsc1 19 21 10),
      (0b000001_10011_10101_01010_00000011100, .addsc2 19 21 10),
      (0b000001_10011_10101_01010_00000011101, .addsc3 19 21 10),
      (0b000010_10011_10101_01010_00000000000, .mul 19 21 10),
      (0b000010_10011_10101_01010_00000000001, .mulhs 19 21 10),
      (0b000010_10011_10101_01010_00000000010, .mulhn 19 21 10),
      (0b000010_10011_10101_01010_00000000011, .mulhsn 19 21 10),
      (0b000010_10011_10101_01010_00000000100, .mul32 19 21 10),
      (0b000010_10011_10101_01010_00000000101, .divs 19 21 10),
      (0b000010_10011_10101_01010_00000000110, .divn 19 21 10),
      (0b000010_10011_10101_01010_00000000111, .rems 19 21 10),
      (0b000010_10011_10101_01010_00000001000, .remn 19 21 10),
      (0b000010_10011_10101_01010_00000001001, .divs32 19 21 10),
      (0b000010_10011_10101_01010_00000001010, .divn32 19 21 10),
      (0b000010_10011_10101_01010_00000001011, .rems32 19 21 10),
      (0b000010_10011_10101_01010_00000001100, .remn32 19 21 10),
      (0b000011_10011_10101_00000_00000000000, .clz 19 21),
      (0b000011_10011_10101_00000_00000000001, .ctz 19 21),
      (0b000011_10011_10101_00000_00000000010, .popc 19 21),
      (0b000011_10011_10101_00000_00000000011, .brev 19 21),
      (0b000011_10011_10101_00000_00000000100, .bswap 19 21),
      (0b000011_10011_10101_01010_00000000101, .extS 19 21 10),
      (0b000011_10011_10101_01010_00000000110, .extU 19 21 10),
      (0b000011_10011_10101_01010_00000000111, .ins 19 21 10),
      (0b000011_10011_10101_00000_00000001000, .clz32 19 21),
      (0b000011_10011_10101_00000_00000001001, .ctz32 19 21),
      (0b000011_10011_10101_00000_00000001010, .popc32 19 21),
      (0b000011_10011_10101_00000_00000001011, .bswap32 19 21),
      (0b000100_10011_10101_1011111011101111, .addi 19 21 0xbeef),
      (0b000101_10011_10101_1011111011101111, .andi 19 21 0xbeef),
      (0b000110_10011_10101_1011111011101111, .ori 19 21 0xbeef),
      (0b000111_10011_10101_1011111011101111, .xori 19 21 0xbeef),
      (0b001000_10011_10101_1011111011101111, .setlti 19 21 0xbeef),
      (0b001001_10011_10101_1011111011101111, .setltni 19 21 0xbeef),
      (0b001010_10011_10101_0000000000101101, .slli 19 21 0x2d),
      (0b001010_10011_10101_0000000001101101, .srli 19 21 0x2d),
      (0b001010_10011_10101_0000000010101101, .srai 19 21 0x2d),
      (0b001010_10011_10101_0000000011101101, .rori 19 21 0x2d),
      (0b001011_10011_00000_1011111011101111, .lui 19 0xbeef),
      (0b001100_10011_00000_1011111011101111, .addpc 19 0xbeef),
      (0b001101_10011_10101_1011111011101111, .shori 19 21 0xbeef)] : List (IWord × Instr)),
    decode p.1 = .ok p.2 := by decide +kernel

/-- Scalar floating point: the minor's bit 0 is the precision (R126 to R129). -/
theorem test_decode_scalar_float :
    ∀ p ∈ ([(0b001110_10011_10101_01010_00000000001, .fadd .f32 19 21 10),
      (0b001110_10011_10101_01010_00000000011, .fsub .f32 19 21 10),
      (0b001110_10011_10101_01010_00000000101, .fmul .f32 19 21 10),
      (0b001110_10011_10101_01010_00000000111, .fdiv .f32 19 21 10),
      (0b001110_10011_10101_00000_00000001001, .fsqrt .f32 19 21),
      (0b001110_10011_10101_01010_00000001011, .fmin .f32 19 21 10),
      (0b001110_10011_10101_01010_00000001101, .fmax .f32 19 21 10),
      (0b001110_10011_10101_01010_00000001111, .fmac .f32 19 21 10),
      (0b001110_10011_10101_01010_00000010001, .fmsc .f32 19 21 10),
      (0b001110_10011_10101_01010_00000010011, .fcmpeq .f32 19 21 10),
      (0b001110_10011_10101_01010_00000010101, .fcmplt .f32 19 21 10),
      (0b001110_10011_10101_01010_00000010111, .fcmple .f32 19 21 10),
      (0b001110_10011_10101_00000_00000011001, .fkind .f32 19 21),
      (0b001110_10011_10101_00001_00000011011, .fcvti .f32 true 19 21),
      (0b001110_10011_10101_00001_00000011101, .fcvtiu .f32 true 19 21),
      (0b001110_10011_10101_00000_00000011111, .fcvtf .f32 19 21),
      (0b001110_10011_10101_00000_00000100001, .fcvtfu .f32 19 21),
      (0b001110_10011_10101_00000_00000100011, .fcvtp .f32 19 21),
      (0b001110_10011_10101_01010_00000100101, .fcopys .f32 19 21 10),
      (0b001110_10011_10101_01010_00000100111, .fcopysn .f32 19 21 10)] : List (IWord × Instr)),
    decode p.1 = .ok p.2 := by decide +kernel

/-- Branches and jumps: B is major, a, b, off; J is major, off (R106, R130 to R132). -/
theorem test_decode_branches_and_jumps :
    ∀ p ∈ ([(0b001111_10011_10101_1011111011101111, .jalr 19 21 0xbeef),
      (0b010000_10101_01010_1011111011101111, .beq 21 10 0xbeef),
      (0b010001_10101_01010_1011111011101111, .bne 21 10 0xbeef),
      (0b010010_10101_01010_1011111011101111, .blt 21 10 0xbeef),
      (0b010011_10101_01010_1011111011101111, .bge 21 10 0xbeef),
      (0b010100_10101_01010_1011111011101111, .bltu 21 10 0xbeef),
      (0b010101_10101_01010_1011111011101111, .bgeu 21 10 0xbeef),
      (0b010110_10110010101111111011101101, .j 0x2cafeed),
      (0b010111_10110010101111111011101101, .jal 0x2cafeed)] : List (IWord × Instr)),
    decode p.1 = .ok p.2 := by decide +kernel

/-- Scalar memory: M is major, data, base, disp (R106, R134 to R138). -/
theorem test_decode_scalar_memory :
    ∀ p ∈ ([(0b011000_10011_10101_1011111011101111, .ld 19 21 0xbeef),
      (0b011001_10011_10101_1011111011101111, .lw 19 21 0xbeef),
      (0b011010_10011_10101_1011111011101111, .lwu 19 21 0xbeef),
      (0b011011_10011_10101_1011111011101111, .sd 19 21 0xbeef),
      (0b011100_10011_10101_1011111011101111, .sw 19 21 0xbeef),
      (0b011101_00000_10101_1011111011101111, .prfRd 21 0xbeef),
      (0b011101_00001_10101_1011111011101111, .prfWr 21 0xbeef),
      (0b011110_10011_10101_01010_00000000000, .lb 19 21 10),
      (0b011110_10011_10101_01010_00000000001, .lbu 19 21 10),
      (0b011110_10011_10101_01010_00000000010, .lh 19 21 10),
      (0b011110_10011_10101_01010_00000000011, .lhu 19 21 10),
      (0b011110_10011_10101_01010_00000000100, .sb 19 21 10),
      (0b011110_10011_10101_01010_00000000101, .sh 19 21 10)] : List (IWord × Instr)),
    decode p.1 = .ok p.2 := by decide +kernel

/-- Atomics: ORD [10:9], SZ [8], SCOPE [7:4], op [3:0] (R112, R202 to R207). -/
theorem test_decode_atomics :
    ∀ p ∈ ([(0b011111_10011_10101_00000_11101100000, .lr ⟨.aqrl, true, 6⟩ 19 21),
      (0b011111_10011_10101_01010_11101100001, .sc ⟨.aqrl, true, 6⟩ 19 21 10),
      (0b011111_10011_10101_01010_11101100010, .amoswap ⟨.aqrl, true, 6⟩ 19 21 10),
      (0b011111_10011_10101_01010_11101100011, .amoadd ⟨.aqrl, true, 6⟩ 19 21 10),
      (0b011111_10011_10101_01010_11101100100, .amoand ⟨.aqrl, true, 6⟩ 19 21 10),
      (0b011111_10011_10101_01010_11101100101, .amoor ⟨.aqrl, true, 6⟩ 19 21 10),
      (0b011111_10011_10101_01010_11101100110, .amoxor ⟨.aqrl, true, 6⟩ 19 21 10),
      (0b011111_10011_10101_01010_11101100111, .amomin ⟨.aqrl, true, 6⟩ 19 21 10),
      (0b011111_10011_10101_01010_11101101000, .amomax ⟨.aqrl, true, 6⟩ 19 21 10),
      (0b011111_10011_10101_01010_11101101001, .amominu ⟨.aqrl, true, 6⟩ 19 21 10),
      (0b011111_10011_10101_01010_11101101010, .amomaxu ⟨.aqrl, true, 6⟩ 19 21 10),
      (0b011111_10011_10101_01010_11101101011, .amocas ⟨.aqrl, true, 6⟩ 19 21 10)] : List (IWord × Instr)),
    decode p.1 = .ok p.2 := by decide +kernel

/-- Vector configuration, moves, masks and permutes: V is major, d, a, b, me [10], mk [9:7], op [6:3], type [2:0] (R106, R139 to R150, R161, R162). -/
theorem test_decode_vector_moves_and_masks :
    ∀ p ∈ ([(0b100000_10011_10101_00000_0_000_0000_010, .setvl .w32 19 21),
      (0b100000_10011_10101_00000_1_101_0001_010, .vsplat .s16 19 21 ⟨true, 5⟩),
      (0b100000_10011_10101_01010_0_000_0010_010, .vmvg .s16 19 21 10),
      (0b100000_10011_10101_01010_0_000_0011_010, .vmvv .s16 19 21 10),
      (0b100000_10011_00000_00000_1_101_0100_010, .vid .s16 19 ⟨true, 5⟩),
      (0b100000_10011_10101_00000_1_101_0101_010, .vmv .s16 19 21 ⟨true, 5⟩),
      (0b100000_10011_10101_01010_1_101_0110_010, .vmerge .s16 19 21 10 5),
      (0b100001_00011_00110_00101_0_000_0000_000, .mand 3 6 5),
      (0b100001_00011_00110_00101_0_000_0001_000, .mor 3 6 5),
      (0b100001_00011_00110_00101_0_000_0010_000, .mxor 3 6 5),
      (0b100001_00011_00110_00101_0_000_0011_000, .mandn 3 6 5),
      (0b100001_00011_00110_00101_0_000_0100_000, .morn 3 6 5),
      (0b100001_00011_00110_00000_0_000_0101_000, .mnot 3 6),
      (0b100001_00011_00000_00000_0_000_0110_000, .mset 3),
      (0b100001_00011_00000_00000_0_000_0111_000, .mclr 3),
      (0b100001_10011_00110_00000_1_101_1000_000, .vffs 19 6 ⟨true, 5⟩),
      (0b100001_10011_00110_00000_1_101_1001_000, .vpopc 19 6 ⟨true, 5⟩),
      (0b100001_10011_00110_00000_1_101_1010_010, .vmprefix .s16 19 6 ⟨true, 5⟩),
      (0b100010_10011_10101_01010_1_101_0000_010, .vshup .s16 19 21 10 ⟨true, 5⟩),
      (0b100010_10011_10101_01010_1_101_0001_010, .vshdn .s16 19 21 10 ⟨true, 5⟩),
      (0b100010_10011_10101_01010_1_101_0010_010, .vperm .s16 19 21 10 ⟨true, 5⟩),
      (0b100010_10011_10101_00000_1_101_0011_010, .vpackm .s16 19 21 5),
      (0b100010_10011_10101_01010_0_000_0100_010, .vreshape .s16 19 21 10),
      (0b100010_10011_10101_01010_1_101_0101_010, .vbcast .s16 19 21 10 ⟨true, 5⟩)] : List (IWord × Instr)),
    decode p.1 = .ok p.2 := by decide +kernel

/-- Vector integer arithmetic and compares (R151 to R153). -/
theorem test_decode_vector_integer :
    ∀ p ∈ ([(0b100011_10011_10101_01010_1_101_0000_010, .vadd .s16 19 21 10 ⟨true, 5⟩),
      (0b100011_10011_10101_01010_1_101_0001_010, .vsub .s16 19 21 10 ⟨true, 5⟩),
      (0b100011_10011_10101_01010_1_101_0010_010, .vmul .s16 19 21 10 ⟨true, 5⟩),
      (0b100011_10011_10101_01010_1_101_0011_010, .vmulh .s16 19 21 10 ⟨true, 5⟩),
      (0b100011_10011_10101_01010_1_101_0100_010, .vdiv .s16 19 21 10 ⟨true, 5⟩),
      (0b100011_10011_10101_01010_1_101_0101_010, .vrem .s16 19 21 10 ⟨true, 5⟩),
      (0b100011_10011_10101_01010_1_101_0110_010, .vmin .s16 19 21 10 ⟨true, 5⟩),
      (0b100011_10011_10101_01010_1_101_0111_010, .vmax .s16 19 21 10 ⟨true, 5⟩),
      (0b100011_10011_10101_01010_1_101_1000_010, .vand .s16 19 21 10 ⟨true, 5⟩),
      (0b100011_10011_10101_01010_1_101_1001_010, .vor .s16 19 21 10 ⟨true, 5⟩),
      (0b100011_10011_10101_01010_1_101_1010_010, .vxor .s16 19 21 10 ⟨true, 5⟩),
      (0b100011_10011_10101_01010_1_101_1011_010, .vsll .s16 19 21 10 ⟨true, 5⟩),
      (0b100011_10011_10101_01010_1_101_1100_010, .vsr .s16 19 21 10 ⟨true, 5⟩),
      (0b100011_10011_10101_01010_1_101_1101_010, .vadds .s16 19 21 10 ⟨true, 5⟩),
      (0b100011_10011_10101_01010_1_101_1110_010, .vsubs .s16 19 21 10 ⟨true, 5⟩),
      (0b100011_10011_10101_01010_1_101_1111_010, .vmac .s16 19 21 10 ⟨true, 5⟩),
      (0b100100_00011_10101_01010_1_101_0000_010, .vseq .s16 3 21 10 ⟨true, 5⟩),
      (0b100100_00011_10101_01010_1_101_0001_010, .vsne .s16 3 21 10 ⟨true, 5⟩),
      (0b100100_00011_10101_01010_1_101_0010_010, .vslt .s16 3 21 10 ⟨true, 5⟩),
      (0b100100_00011_10101_01010_1_101_0011_010, .vsle .s16 3 21 10 ⟨true, 5⟩),
      (0b100100_00011_10101_01010_1_101_0100_010, .vsgt .s16 3 21 10 ⟨true, 5⟩),
      (0b100100_00011_10101_01010_1_101_0101_010, .vsge .s16 3 21 10 ⟨true, 5⟩)] : List (IWord × Instr)),
    decode p.1 = .ok p.2 := by decide +kernel

/-- Vector floating point, compares and conversions (R154, R155, R158). -/
theorem test_decode_vector_float :
    ∀ p ∈ ([(0b100101_10011_10101_01010_1_101_0000_011, .vfadd .bf16 19 21 10 ⟨true, 5⟩),
      (0b100101_10011_10101_01010_1_101_0001_011, .vfsub .bf16 19 21 10 ⟨true, 5⟩),
      (0b100101_10011_10101_01010_1_101_0010_011, .vfmul .bf16 19 21 10 ⟨true, 5⟩),
      (0b100101_10011_10101_01010_1_101_0011_011, .vfdiv .bf16 19 21 10 ⟨true, 5⟩),
      (0b100101_10011_10101_00000_1_101_0100_011, .vfsqrt .bf16 19 21 ⟨true, 5⟩),
      (0b100101_10011_10101_01010_1_101_0101_011, .vfmin .bf16 19 21 10 ⟨true, 5⟩),
      (0b100101_10011_10101_01010_1_101_0110_011, .vfmax .bf16 19 21 10 ⟨true, 5⟩),
      (0b100101_10011_10101_01010_1_101_0111_011, .vfmac .bf16 19 21 10 ⟨true, 5⟩),
      (0b100101_10011_10101_01010_1_101_1000_011, .vfmsc .bf16 19 21 10 ⟨true, 5⟩),
      (0b100101_10011_10101_01010_1_101_1001_011, .vfcopys .bf16 19 21 10 ⟨true, 5⟩),
      (0b100101_10011_10101_01010_1_101_1010_011, .vfcopysn .bf16 19 21 10 ⟨true, 5⟩),
      (0b100110_00011_10101_01010_1_101_0000_011, .vfcmpeq .bf16 3 21 10 ⟨true, 5⟩),
      (0b100110_00011_10101_01010_1_101_0001_011, .vfcmpne .bf16 3 21 10 ⟨true, 5⟩),
      (0b100110_00011_10101_01010_1_101_0010_011, .vfcmplt .bf16 3 21 10 ⟨true, 5⟩),
      (0b100110_00011_10101_01010_1_101_0011_011, .vfcmple .bf16 3 21 10 ⟨true, 5⟩),
      (0b100110_10011_10101_00000_1_101_0100_011, .vfkind .bf16 19 21 ⟨true, 5⟩),
      (0b100111_10011_10101_00000_1_101_0010_010, .vcvt (.toF32 .bf16) 19 21 ⟨true, 5⟩)] : List (IWord × Instr)),
    decode p.1 = .ok p.2 := by decide +kernel

/-- Reductions and scans (R159, R160). -/
theorem test_decode_vector_reductions :
    ∀ p ∈ ([(0b101000_10011_10101_01010_1_101_0000_010, .vredAdd .s16 19 21 10 ⟨true, 5⟩),
      (0b101000_10011_10101_01010_1_101_0001_010, .vredMin .s16 19 21 10 ⟨true, 5⟩),
      (0b101000_10011_10101_01010_1_101_0010_010, .vredMax .s16 19 21 10 ⟨true, 5⟩),
      (0b101000_10011_10101_01010_1_101_0011_010, .vredAnd .s16 19 21 10 ⟨true, 5⟩),
      (0b101000_10011_10101_01010_1_101_0100_010, .vredOr .s16 19 21 10 ⟨true, 5⟩),
      (0b101000_10011_10101_01010_1_101_0101_010, .vredXor .s16 19 21 10 ⟨true, 5⟩),
      (0b101000_10011_10101_01010_1_101_0110_011, .vfredTree .bf16 19 21 10 ⟨true, 5⟩),
      (0b101000_10011_10101_01010_1_101_0111_011, .vfredSeq .bf16 19 21 10 ⟨true, 5⟩),
      (0b101000_10011_10101_01010_1_101_1000_011, .vfredMin .bf16 19 21 10 ⟨true, 5⟩),
      (0b101000_10011_10101_01010_1_101_1001_011, .vfredMax .bf16 19 21 10 ⟨true, 5⟩),
      (0b101000_10011_10101_01010_1_101_1010_010, .vscan .s16 19 21 10 ⟨true, 5⟩),
      (0b101000_10011_10101_01010_1_101_1011_011, .vfscan .bf16 19 21 10 ⟨true, 5⟩)] : List (IWord × Instr)),
    decode p.1 = .ok p.2 := by decide +kernel

/-- Widening, dot and vector-scalar forms (R156, R157). -/
theorem test_decode_vector_wide_and_scalar :
    ∀ p ∈ ([(0b101001_10011_10101_01010_1_101_0000_010, .vwadd .s16 19 21 10 ⟨true, 5⟩),
      (0b101001_10011_10101_01010_1_101_0001_010, .vwsub .s16 19 21 10 ⟨true, 5⟩),
      (0b101001_10011_10101_01010_1_101_0010_010, .vwmul .s16 19 21 10 ⟨true, 5⟩),
      (0b101001_10011_10101_01010_1_101_0011_010, .vwmac .s16 19 21 10 ⟨true, 5⟩),
      (0b101001_10011_10101_01010_1_101_0100_011, .vfwadd .bf16 19 21 10 ⟨true, 5⟩),
      (0b101001_10011_10101_01010_1_101_0101_011, .vfwsub .bf16 19 21 10 ⟨true, 5⟩),
      (0b101001_10011_10101_01010_1_101_0110_011, .vfwmul .bf16 19 21 10 ⟨true, 5⟩),
      (0b101001_10011_10101_01010_1_101_0111_011, .vfwmac .bf16 19 21 10 ⟨true, 5⟩),
      (0b101001_10011_10101_01010_1_101_1000_011, .vdot .s8 19 21 10 ⟨true, 5⟩),
      (0b101001_10011_10101_01010_1_101_1001_101, .vfdot .e5m2 19 21 10 ⟨true, 5⟩),
      (0b101010_10011_10101_01010_1_101_0000_010, .vaddVs .s16 19 21 10 ⟨true, 5⟩),
      (0b101010_10011_10101_01010_1_101_0001_010, .vsubVs .s16 19 21 10 ⟨true, 5⟩),
      (0b101010_10011_10101_01010_1_101_0010_010, .vrsubVs .s16 19 21 10 ⟨true, 5⟩),
      (0b101010_10011_10101_01010_1_101_0011_010, .vmulVs .s16 19 21 10 ⟨true, 5⟩),
      (0b101010_10011_10101_01010_1_101_0100_010, .vminVs .s16 19 21 10 ⟨true, 5⟩),
      (0b101010_10011_10101_01010_1_101_0101_010, .vmaxVs .s16 19 21 10 ⟨true, 5⟩),
      (0b101010_10011_10101_01010_1_101_0110_010, .vandVs .s16 19 21 10 ⟨true, 5⟩),
      (0b101010_10011_10101_01010_1_101_0111_010, .vsllVs .s16 19 21 10 ⟨true, 5⟩),
      (0b101010_10011_10101_01010_1_101_1000_011, .vfaddVs .bf16 19 21 10 ⟨true, 5⟩),
      (0b101010_10011_10101_01010_1_101_1001_011, .vfsubVs .bf16 19 21 10 ⟨true, 5⟩),
      (0b101010_10011_10101_01010_1_101_1010_011, .vfrsubVs .bf16 19 21 10 ⟨true, 5⟩),
      (0b101010_10011_10101_01010_1_101_1011_011, .vfmulVs .bf16 19 21 10 ⟨true, 5⟩),
      (0b101010_10011_10101_01010_1_101_1100_011, .vfdivVs .bf16 19 21 10 ⟨true, 5⟩),
      (0b101010_10011_10101_01010_1_101_1101_011, .vfrdivVs .bf16 19 21 10 ⟨true, 5⟩),
      (0b101010_10011_10101_01010_1_101_1110_011, .vfmacVs .bf16 19 21 10 ⟨true, 5⟩),
      (0b101010_10011_10101_01010_1_101_1111_011, .vfmaxVs .bf16 19 21 10 ⟨true, 5⟩)] : List (IWord × Instr)),
    decode p.1 = .ok p.2 := by decide +kernel

/-- Vector memory: VM is major, data, base, x, me, mk, op, width (R106, R164 to R182). -/
theorem test_decode_vector_memory :
    ∀ p ∈ ([(0b101100_10011_10101_00000_1_101_0000_010, .vld .w32 19 21 ⟨true, 5⟩),
      (0b101100_10011_10101_01010_1_101_0001_010, .vlds .w32 19 21 10 ⟨true, 5⟩),
      (0b101100_10011_10101_01010_1_101_0010_010, .vldFf .w32 19 21 10 ⟨true, 5⟩),
      (0b101100_10011_10101_00000_1_101_0011_100, .vlw .e2m1 19 21 ⟨true, 5⟩),
      (0b101101_10011_10101_00000_1_101_0000_010, .vst .w32 19 21 ⟨true, 5⟩),
      (0b101101_10011_10101_01010_1_101_0001_010, .vsts .w32 19 21 10 ⟨true, 5⟩),
      (0b101110_10011_10101_00000_1_101_0101_010, .vlseg .w32 0x5 19 21 ⟨true, 5⟩),
      (0b101110_10011_10101_00000_1_101_1101_010, .vsseg .w32 0x5 19 21 ⟨true, 5⟩),
      (0b101111_10011_10101_01010_1_101_0000_010, .vgather .w32 19 21 10 ⟨true, 5⟩),
      (0b101111_10011_10101_01010_1_101_0001_010, .vscatter .w32 19 21 10 ⟨true, 5⟩),
      (0b101111_10011_10101_01010_1_101_0010_010, .vgatherNb .w32 19 21 10 ⟨true, 5⟩),
      (0b101111_10011_10101_01010_1_101_0011_010, .vlsl .w32 19 21 10 ⟨true, 5⟩),
      (0b101111_10011_10101_01010_1_101_0100_010, .vssl .w32 19 21 10 ⟨true, 5⟩),
      (0b101111_10011_10101_01010_1_101_0101_011, .vsend .w64 19 21 10 ⟨true, 5⟩)] : List (IWord × Instr)),
    decode p.1 = .ok p.2 := by decide +kernel

/-- Matrix words: MX is major, acc [25:23], va [22:18], vb [17:13], mr [12:10], mc [9:7], grp [6:4], func [3:0] (R106, R183 to R201). -/
theorem test_decode_matrix :
    ∀ p ∈ ([(0b110000_101_10101_01010_011_110_101_0011, .mopa .bf16 5 21 10 3 6 0x5),
      (0b110001_101_10101_01010_011_110_101_0010, .mopaMixed .e5m2e4m3 5 21 10 3 6 0x5),
      (0b110010_101_10011_00000_000_000_000_0000, .accon 5 19),
      (0b110010_101_00000_00000_000_000_000_0001, .accoff 5),
      (0b110010_101_00000_00000_000_000_000_0010, .accz 5),
      (0b110010_101_00000_00000_011_110_000_0011, .acczM 5 3 6),
      (0b110010_101_10011_01010_000_110_101_0100, .accmovRv 5 19 10 6 0x5),
      (0b110010_101_10011_01010_000_110_101_0101, .accmovCv 5 19 10 6 0x5),
      (0b110010_101_10101_01010_000_110_101_0110, .accmovVr 5 21 10 6 0x5),
      (0b110010_101_10101_01010_000_110_101_0111, .accmovVc 5 21 10 6 0x5),
      (0b110011_101_10101_01010_011_110_000_0000, .mldF32 5 21 10 3 6),
      (0b110011_101_10101_01010_011_110_000_0001, .mldF64 5 21 10 3 6),
      (0b110011_101_10101_01010_011_110_000_0010, .mldBf16 5 21 10 3 6),
      (0b110011_101_10101_01010_011_110_000_0011, .mldFfF32 5 21 10 3 6),
      (0b110011_101_10101_01010_011_110_000_0100, .mldFfF64 5 21 10 3 6),
      (0b110011_101_10101_01010_011_110_000_0101, .mstF32 5 21 10 3 6),
      (0b110011_101_10101_01010_011_110_000_0110, .mstF64 5 21 10 3 6),
      (0b110011_101_10101_01010_011_110_000_0111, .mstBf16 5 21 10 3 6)] : List (IWord × Instr)),
    decode p.1 = .ok p.2 := by decide +kernel

/-- Fences, waits and engine commands: Q is major, a, b, c, func [10:0] (R106, R208 to R219). -/
theorem test_decode_synchronisation_and_engines :
    ∀ p ∈ ([(0b110100_00000_00000_01011_00000000000, .fence 0xb),
      (0b110100_00000_00000_01011_00000000001, .fenceAcq 0xb),
      (0b110100_00000_00000_01011_00000000010, .fenceRel 0xb),
      (0b110100_00000_00000_00000_00000000011, .fenceI),
      (0b110100_10101_01010_01010_00000000110, .waita .geu 21 10 10),
      (0b110100_10101_01010_01010_00000001010, .waitaAq .geu 21 10 10),
      (0b110100_00000_00000_00000_00000001100, .engwait),
      (0b110101_10101_01010_01010_00000000000, .cpy 21 10 10),
      (0b110101_10101_01010_01010_00000000001, .kvgather 21 10 10),
      (0b110101_10101_01010_01010_00000000010, .kvappend 21 10 10),
      (0b110101_10101_01010_01010_00000000011, .fconvD2f 21 10 10),
      (0b110101_10101_01010_01010_00000000100, .fconvF2d 21 10 10),
      (0b110101_10101_01010_01010_00000000101, .sfbag 21 10 10)] : List (IWord × Instr)),
    decode p.1 = .ok p.2 := by decide +kernel

/-- Streams, fabric loads, tasks, gangs, watch entries and END (R220 to R230). -/
theorem test_decode_trellis_and_tasks :
    ∀ p ∈ ([(0b110110_10101_01010_00000_00000000000, .sbind 21 10),
      (0b110110_10101_01010_00000_00000000001, .sbindGen 21 10),
      (0b110110_10101_00000_00000_00000000010, .srel 21),
      (0b110110_10101_01010_00000_00000000011, .tload 21 10),
      (0b110110_00000_00000_00000_00000000100, .tswap),
      (0b110110_10101_00000_00000_00000000101, .tbar 21),
      (0b110111_10101_00000_00000_00000000000, .tspawn 21),
      (0b110111_10101_01010_00000_00000000001, .gang 21 10),
      (0b110111_00000_00000_00000_00000000010, .gangLeave),
      (0b110111_10101_01010_00000_00000000011, .watchBind 21 10),
      (0b110111_10101_00000_00000_00000000100, .watchArm 21),
      (0b110111_10101_00000_00000_00000000101, .watchDisarm 21),
      (0b110111_10101_00000_00000_00000000110, .watchUnbind 21),
      (0b110111_10101_00000_00000_00000000111, .endTask 21)] : List (IWord × Instr)),
    decode p.1 = .ok p.2 := by decide +kernel

/-- Control registers and system instructions: Y is major, d, a, func [15:12], csr [11:0] (R106, R231 to R243). -/
theorem test_decode_system :
    ∀ p ∈ ([(0b111000_10011_00000_0000_100110100101, .csrr 19 0x9a5),
      (0b111000_10011_10101_0001_100110100101, .csrw 19 21 0x9a5),
      (0b111000_10011_10101_0010_100110100101, .csrs 19 21 0x9a5),
      (0b111000_10011_10101_0011_100110100101, .csrc 19 21 0x9a5),
      (0b111001_00000_00000_0000_000000000000, .eret),
      (0b111001_00000_00000_0001_100110100101, .brk 0x9a5),
      (0b111001_00000_00000_0010_100110100101, .syscall 0x9a5),
      (0b111001_00000_10101_0011_000000000000, .tabort 21),
      (0b111010_00000_00000_0000_000000000000, .tlbiAll),
      (0b111010_00000_10101_0001_000000000000, .tlbiAs 21),
      (0b111010_10011_10101_0010_000000000000, .tlbiVa 19 21),
      (0b111010_00000_10101_0011_000000000000, .tlbiVaall 21),
      (0b111010_00000_10101_0100_000000000000, .clean 21),
      (0b111010_00000_10101_0101_000000000000, .flush 21),
      (0b111010_00000_00000_0110_000000000000, .flushL1),
      (0b111010_00000_00000_0111_000000000000, .flushL2)] : List (IWord × Instr)),
    decode p.1 = .ok p.2 := by decide +kernel

/-- The worked words of R107's and R108's text and of the examples of 05: the all-zeros and the all-ones word and an ADD with
bit 8 set are illegal, NOP is ORI g0, g0, 0, and bit 11 of it is part of its immediate (R104, R108). -/
theorem test_decode_examples :
    decode 0 = .reject .major ∧ decode 0xFFFF_FFFF = .reject .major ∧ decode 0x0464_2900 = .reject .minor ∧
    decode 0x1800_0000 = .ok (.ori 0 0 0) ∧ decode 0x1800_0800 = .ok (.ori 0 0 0x0800) ∧
    decode 0x44A0_FFFE = .ok (.bne 5 0 0xFFFE) ∧ decode 0x44B0_FFFE = .ok (.bne 5 16 0xFFFE) ∧
    decode 0x60A6_0008 = .ok (.ld 5 6 8) ∧ decode 0x0464_2800 = .ok (.add 3 4 5) := by decide +kernel

/-- One illegal word for each case of R108: an unused register field, a reserved field, a mask field of 8, a reserved type
code, a scope without an ordering, and segments past v31. -/
theorem test_decode_illegal :
    decode 0b000011_10011_10101_00001_00000000000 = .reject .unused ∧
    decode 0b001011_10011_00001_0000000000000001 = .reject .reserved ∧
    decode 0b100001_01000_00000_00000_0_000_0110_000 = .reject .maskReg ∧
    decode 0b100101_00001_00010_00011_0_000_0000_010 = .reject .typeCode ∧
    decode 0b011111_00001_00010_00011_00_1_0001_0011 = .reject .reserved ∧
    decode 0b101110_11111_00001_00000_0_000_0001_010 = .reject .segment := by decide +kernel

/-! ## Small states -/

/-- g registers from a list, the rest at zero. -/
def gs (l : List Word) : Vector Word 32 := Vector.ofFn fun i => l.getD i.val 0

/-- A task without a gang or completion words. -/
def task0 : Task := { id := 7, words := Vector.replicate 8 0, level := 0, gang := none }

/-- A strand that runs task0 at 0x1000. -/
def strand0 (l : List Word) : Strand := { Strand.reset with run := .running, pc := 0x1000, g := gs l, task := some task0 }

/-- A released module in which strand 0 runs with g registers from the list, l[0] in g0's place. -/
def st (l : List Word) : State :=
  { State.reset with strands := [(0, strand0 l)], cogor := { Cogor.reset with stage := 6, bringup := 0 } }

/-- The state with doublewords stored from an address on. -/
def wr (s : State) (a : Nat) (l : List Nat) : State :=
  { s with mem := memSetBytes s.mem a (l.flatMap fun x => leBytes 8 x) }

/-- The state in which strand 0 holds the lowest n lane groups at element width w, with VL = vl. -/
def vec (s : State) (n : Nat) (w : Width) (vl : Nat) : State :=
  (s.mapMe fun x => { x with ew := w, vl := vl }).mapTile 0 fun t =>
    { t with latc := Vector.ofFn fun i => if i.val < n then some 0 else none }

/-- The state with v registers from a list. -/
def vregs (s : State) (l : List Nat) : State :=
  s.mapMe fun x => { x with v := Vector.ofFn fun i => BitVec.ofNat 16384 (l.getD i.val 0) }

/-- The state with mask registers from a list. -/
def masks (s : State) (l : List Nat) : State :=
  s.mapMe fun x => { x with m := Vector.ofFn fun i => BitVec.ofNat 4096 (l.getD i.val 0) }

/-- Whether an outcome is a next state that passes a check. -/
def gives (o : Host.Outcome State Fault Refusal) (p : State → Bool) : Bool :=
  match o with
  | .next t => p t
  | _ => false

/-- PlainFor as a check. -/
def plainForB (s : State) (t b : Nat) (va : Word) (n : Nat) : Bool :=
  va.toNat % n == 0 && decide (va.toNat < 0xBF_8000_0000) && s.samePart (dieOf t) (.hbm va.toNat) &&
  s.meets b va.toNat true == none && s.meets b va.toNat false == none && !s.engineHolds b va.toNat &&
  s.heldHalves va.toNat == [] && !s.isPoisoned va.toNat n

/-- PlainAt as a check. -/
def plainB (s : State) (p : Word × Nat) : Bool :=
  plainForB s s.myTile 0 p.1 p.2 && s.me.root == 0 && s.me.lost == none

theorem plainFor_of {s : State} {t b : Nat} {va : Word} {n : Nat} (h : plainForB s t b va n = true) : PlainFor s t b va n := by
  simp only [plainForB, Bool.and_eq_true, beq_iff_eq, decide_eq_true_eq, Bool.not_eq_true'] at h
  obtain ⟨⟨⟨⟨⟨⟨⟨h1, h2⟩, h3⟩, h4⟩, h5⟩, h6⟩, h7⟩, h8⟩ := h
  exact ⟨h1, h2, h3, fun w => by cases w <;> assumption, h6, h7, h8⟩

theorem plain_of {s : State} {p : Word × Nat} (h : plainB s p = true) : PlainAt s p.1 p.2 := by
  simp only [plainB, Bool.and_eq_true, beq_iff_eq] at h
  exact ⟨plainFor_of h.1.1, h.1.2, h.2⟩

theorem plain_all {s : State} {l : List (Word × Nat)} (h : l.all (plainB s) = true) : ∀ p ∈ l, PlainAt s p.1 p.2 :=
  fun p hp => plain_of (List.all_eq_true.mp h p hp)

theorem plainFor_all {s : State} {t b : Nat} {l : List (Word × Nat)} (h : (l.all fun p => plainForB s t b p.1 p.2) = true) :
    ∀ p ∈ l, PlainFor s t b p.1 p.2 := fun p hp => plainFor_of (List.all_eq_true.mp h p hp)

theorem plain_each {α : Type} {s : State} {l : List α} {f : α → List Word} {n : Nat}
    (h : (l.all fun e => (f e).all fun u => plainB s (u, n)) = true) : ∀ e ∈ l, ∀ u ∈ f e, PlainAt s u n :=
  fun e he u hu => plain_of (p := (u, n)) (List.all_eq_true.mp (List.all_eq_true.mp h e he) u hu)

theorem plain_list {α : Type} {s : State} {l : List α} {f : α → Word} {n : Nat}
    (h : (l.all fun e => plainB s (f e, n)) = true) : ∀ e ∈ l, PlainAt s (f e) n :=
  fun e he => plain_of (p := (f e, n)) (List.all_eq_true.mp h e he)

/-! ## Results worked out by hand -/

/-- 2^64 − 1 plus 2 is 1, and a result for g0 is discarded (R113, R118). -/
theorem test_add : gives (exec (.add 3 1 2) (st [0, 0xFFFF_FFFF_FFFF_FFFF, 2])) (fun t => t.readG 3 == 1 && t.me.pc == 0x1004) = true ∧
    gives (exec (.add 0 1 2) (st [0, 7, 2])) (fun t => t.readG 0 == 0 && t.me.pc == 0x1004) = true := by decide +kernel

/-- The signed −1 is below 1 and the unsigned 2^64 − 1 is not (R118). -/
theorem test_compares :
    gives (exec (.setlt 3 1 2) (st [0, 0xFFFF_FFFF_FFFF_FFFF, 1])) (·.readG 3 == 1) = true ∧
    gives (exec (.setltn 3 1 2) (st [0, 0xFFFF_FFFF_FFFF_FFFF, 1])) (·.readG 3 == 0) = true := by decide +kernel

/-- An arithmetic shift by 63 spreads the sign, and a 32-bit sum is sign-extended (R118). -/
theorem test_shift_and_add32 :
    gives (exec (.sra 3 1 2) (st [0, 0x8000_0000_0000_0000, 63])) (·.readG 3 == 0xFFFF_FFFF_FFFF_FFFF) = true ∧
    gives (exec (.add32 3 1 2) (st [0, 0x7FFF_FFFF, 1])) (·.readG 3 == 0xFFFF_FFFF_8000_0000) = true := by decide +kernel

/-- −1 · 2 has the high half −1, (2^64 − 1) · 2 the high half 1 (R122). -/
theorem test_multiply_high :
    gives (exec (.mulhs 3 1 2) (st [0, 0xFFFF_FFFF_FFFF_FFFF, 2])) (·.readG 3 == 0xFFFF_FFFF_FFFF_FFFF) = true ∧
    gives (exec (.mulhn 3 1 2) (st [0, 0xFFFF_FFFF_FFFF_FFFF, 2])) (·.readG 3 == 1) = true := by decide +kernel

/-- −7 ÷ 2 is −3 with remainder −1; −2^63 ÷ −1 wraps to −2^63; by zero traps with cause 0x0A and EPC at itself (R123, R238). -/
theorem test_divide :
    gives (exec (.divs 3 1 2) (st [0, 0xFFFF_FFFF_FFFF_FFF9, 2])) (·.readG 3 == 0xFFFF_FFFF_FFFF_FFFD) = true ∧
    gives (exec (.rems 3 1 2) (st [0, 0xFFFF_FFFF_FFFF_FFF9, 2])) (·.readG 3 == 0xFFFF_FFFF_FFFF_FFFF) = true ∧
    gives (exec (.divs 3 1 2) (st [0, 0x8000_0000_0000_0000, 0xFFFF_FFFF_FFFF_FFFF])) (·.readG 3 == 0x8000_0000_0000_0000) = true ∧
    gives (exec (.divn 3 1 2) (st [0, 5, 0, 9])) (fun t => t.me.cause == 0x0A && t.me.epc == 0x1000 && t.readG 3 == 9 &&
      t.me.pl && t.me.ta && t.me.pc == 0) = true := by decide +kernel

/-- 64 zeros lead 0, three follow the one bit of 8, and BSWAP turns the bytes round (R124, R125). -/
theorem test_bits :
    gives (exec (.clz 3 1) (st [0, 0])) (·.readG 3 == 64) = true ∧ gives (exec (.ctz 3 1) (st [0, 8])) (·.readG 3 == 3) = true ∧
    gives (exec (.bswap 3 1) (st [0, 0x0102_0304_0506_0708])) (·.readG 3 == 0x0807_0605_0403_0201) = true := by decide +kernel

/-- An immediate of 0xFFF0 is −16 in ADDI and 65,520 in ORI; LUI of 0x8000 is −2^31 (R111, R120, R121). -/
theorem test_immediates :
    gives (exec (.addi 3 1 0xFFF0) (st [0, 16])) (·.readG 3 == 0) = true ∧
    gives (exec (.ori 3 0 0xFFF0) (st [])) (·.readG 3 == 0xFFF0) = true ∧
    gives (exec (.lui 3 0x8000) (st [])) (·.readG 3 == 0xFFFF_FFFF_8000_0000) = true ∧
    gives (exec (.shori 3 1 0x5678) (st [0, 0x1234])) (·.readG 3 == 0x1234_5678) = true := by decide +kernel

/-- 1 + 1 is 2 in FP64, 1 ÷ 0 is infinity in FP32 with DZ, and √4 is 2 (R74, R92, R126). -/
theorem test_scalar_float :
    gives (exec (.fadd .f64 3 1 2) (st [0, 0x3FF0_0000_0000_0000, 0x3FF0_0000_0000_0000])) (·.readG 3 == 0x4000_0000_0000_0000) = true ∧
    gives (exec (.fdiv .f32 3 1 2) (st [0, 0x3F80_0000, 0])) (fun t => t.readG 3 == 0x7F80_0000 && t.me.fflags == 0x02) = true ∧
    gives (exec (.fsqrt .f64 3 1) (st [0, 0x4010_0000_0000_0000])) (·.readG 3 == 0x4000_0000_0000_0000) = true := by
  decide +kernel

/-- An offset of −2 words from 0x1000 is 0xFF8; JAL leaves 0x1004 in g31; JALR to an odd target traps (R107, R130 to R132). -/
theorem test_branches :
    gives (exec (.beq 1 2 0xFFFE) (st [0, 5, 5])) (·.me.pc == 0xFF8) = true ∧
    gives (exec (.jal 0x10) (st [])) (fun t => t.me.pc == 0x1040 && t.readG 31 == 0x1004) = true ∧
    gives (exec (.jalr 3 1 1) (st [0, 0x2000])) (fun t => t.me.cause == 0x03 && t.me.trec == 0x2001 && t.readG 3 == 0) = true := by
  decide +kernel

/-- LW extends the sign, LBU does not; SD stores the lowest byte first (R5, R134, R135). -/
theorem test_scalar_memory :
    gives (exec (.lw 3 1 0) (wr (st [0, 0x2000]) 0x2000 [0x8000_0001])) (·.readG 3 == 0xFFFF_FFFF_8000_0001) = true ∧
    gives (exec (.lbu 3 1 2) (wr (st [0, 0x2000, 3]) 0x2000 [0x8000_0001])) (·.readG 3 == 0x80) = true ∧
    gives (exec (.sd 2 1 8) (st [0, 0x2000, 0x0102_0304_0506_0708])) (fun t => memGet t.mem 0x2008 == 8 && memGet t.mem 0x200F == 1 &&
      memGet t.mem 0x2010 == 0) = true := by decide +kernel

/-- AMOADD.W gives the old word, sign-extended, and SC without a reservation gives 1 and stores nothing (R205 to R207). -/
theorem test_atomics :
    gives (exec (.amoadd ⟨.none, false, 0⟩ 3 1 2) (wr (st [0, 0x2000, 2]) 0x2000 [0xFFFF_FFFF]))
      (fun t => t.readG 3 == 0xFFFF_FFFF_FFFF_FFFF && t.load64 0x2000 == 1) = true ∧
    gives (exec (.sc ⟨.none, true, 0⟩ 3 1 2) (st [0, 0x2000, 2])) (fun t => t.readG 3 == 1 && t.load64 0x2000 == 0) = true := by
  decide +kernel

/-- 300 elements of 32 bits need five lane groups, and eight groups hold 2,728 elements of 6 bits (R114). -/
theorem test_setvl :
    gives (exec (.setvl .w32 3 1) (st [0, 300])) (fun t => t.readG 3 == 300 && t.me.vl == 300 && t.groupsOf 0 == [0, 1, 2, 3, 4]) = true ∧
    gives (exec (.setvl .w6 3 1) (st [0, 5000])) (fun t => t.readG 3 == 2728) = true := by decide +kernel

/-- 255 + 1 is 0 in .n8, a division by zero gives 255 and the remainder a; an element past VL is kept (R139, R151, R152). -/
theorem test_vector_integer :
    gives (exec (.vadd .n8 3 1 2 ⟨false, 0⟩) (vregs (vec (st []) 1 .w8 2) [0, 0x0503FF, 0x010101, 0x770000]))
      (fun t => t.vreg 3 == 0x770400) = true ∧
    gives (exec (.vdiv .n8 3 1 2 ⟨false, 0⟩) (vregs (vec (st []) 1 .w8 2) [0, 0x0703, 0x0200])) (fun t => t.vreg 3 == 0x03FF) = true ∧
    gives (exec (.vrem .n8 3 1 2 ⟨true, 1⟩) (masks (vregs (vec (st []) 1 .w8 2) [0, 0x0703, 0x0200, 0x1111]) [0, 1]))
      (fun t => t.vreg 3 == 0x1103) = true := by decide +kernel

/-- BF16 1 + 1 is 2 (R73, R154); a width that is not EW traps with 0x09 (R99). -/
theorem test_vector_float :
    gives (exec (.vfadd .bf16 3 1 1 ⟨false, 0⟩) (vregs (vec (st []) 1 .w16 1) [0, 0x3F80])) (fun t => t.vreg 3 == 0x4000) = true ∧
    gives (exec (.vfadd .f32 3 1 1 ⟨false, 0⟩) (vregs (vec (st []) 1 .w16 1) [0, 0x3F80])) (fun t => t.me.cause == 0x09) = true := by
  decide +kernel

/-- A sum from g_b through the elements goes to element 0; a scan leaves each partial sum (R159). -/
theorem test_reduction_and_scan :
    gives (exec (.vredAdd .n8 3 1 2 ⟨false, 0⟩) (vregs (vec (st [0, 0, 10]) 1 .w8 3) [0, 0x030201, 0, 0xAA00])) (fun t => t.vreg 3 == 0xAA10) = true ∧
    gives (exec (.vscan .n8 3 1 2 ⟨false, 0⟩) (vregs (vec (st [0, 0, 10]) 1 .w8 3) [0, 0x030201])) (fun t => t.vreg 3 == 0x100D0B) = true := by
  decide +kernel

/-- VLD reads VL bytes and leaves the rest of the register, VST writes VL bytes and keeps the next (R174). -/
theorem test_vector_memory :
    gives (exec (.vld .w8 3 1 ⟨false, 0⟩) (vregs (wr (vec (st [0, 0x2000]) 1 .w8 2) 0x2000 [0x030201]) [0, 0, 0, 0x990000]))
      (fun t => t.vreg 3 == 0x990201) = true ∧
    gives (exec (.vst .w8 3 1 ⟨false, 0⟩) (vregs (wr (vec (st [0, 0x2000]) 1 .w8 2) 0x2000 [0x030201]) [0, 0, 0, 0x998877]))
      (fun t => t.load64 0x2000 == 0x038877) = true := by decide +kernel

/-- ACCON of a free accumulator gives 1; 2 · 3 added to 0 in FP32 is 6; without the accumulator MOPA traps with 0x08 (R185, R187,
R191). -/
theorem test_matrix :
    gives (exec (.accon 2 3) (st [])) (fun t => t.readG 3 == 1 && t.accen 0 == 4) = true ∧
    gives (exec (.mopa .f32 2 1 2 0 1 0) ((masks (vregs (vec (st []) 2 .w32 1) [0, 0x4000_0000, 0x4040_0000]) [1, 1]).mapTile 0 fun y =>
      { y with accOwner := y.accOwner.set 2 (some 0) })) (fun t => t.acc 2 == 0x40C0_0000) = true ∧
    gives (exec (.mopa .f32 2 1 2 0 1 0) (st [])) (fun t => t.me.cause == 0x08 && t.me.trec == 2) = true := by decide +kernel

/-- VCFG reads 0x300 at reset; a write of EW is ignored and RM is taken; a supervisor register traps at user level (R233, R235). -/
theorem test_csr :
    gives (exec (.csrr 3 0x000) (st [])) (·.readG 3 == 0x300) = true ∧
    gives (exec (.csrw 3 1 0x000) (st [0, 0x101])) (fun t => t.readCsr 0 0 == some 0x301) = true ∧
    gives (exec (.csrr 3 0x800) (st [])) (fun t => t.me.cause == 0x02) = true := by decide +kernel

/-- SYSCALL leaves EPC at the next instruction, BRK at itself; ERET goes back (R241, R242). -/
theorem test_system :
    gives (exec (.syscall 7) (st [])) (fun t => t.me.cause == 0x16 && t.me.trec == 7 && t.me.epc == 0x1004) = true ∧
    gives (exec (.brk 9) (st [])) (fun t => t.me.cause == 0x14 && t.me.trec == 9 && t.me.epc == 0x1000) = true ∧
    gives (exec .eret ((st []).mapMe fun x => { x with pl := true, ta := true, epc := 0x5000, pss := true }))
      (fun t => t.me.pc == 0x5000 && !t.me.pl && !t.me.ta && t.me.ss) = true := by decide +kernel

/-- END writes bit 63 and the exit value to the completion word, takes one from a successor counter, and frees the strand (R36,
R39, R40). -/
theorem test_end :
    gives (exec (.endTask 1) ((wr (st [0, 5]) 0x3000 [0, 2]).mapMe fun x =>
      { x with task := some { task0 with words := #v[0, 0, 0x3000, 0, 0x3008, 0, 0, 0] } }))
      (fun t => t.load64 0x3000 == 0x8000_0000_0005_0000 && t.load64 0x3008 == 1 && t.me.run == .free) = true := by decide +kernel

/-- A word placed where the next step fetches runs: ADDI g3, g0, 5 (R106). -/
theorem test_step_runs_a_word :
    gives (step (State.reset.withFetchWord 32 0x1060_0005)) (fun t => t.readG 3 == 5) = true ∧
    gives (step (State.reset.withFetchWord 32 0)) (fun t => t.me.cause == 0x01 && t.me.trec == 0) = true := by decide +kernel

/-! ## States and operands that meet the hypotheses of each statement -/

/-- ScalarIntegerResults: sums at both ends of the range and one past each, divisors other than zero and zero, in 64 and in 32
bits, with TA = 0. -/
theorem test_meets_ScalarIntegerResults :
    (let s := st [0, 0x7FFF_FFFF_FFFF_FFFE, 1, 2, 0x8000_0000_0000_0000, 0xFFFF_FFFF_FFFF_FFFF, 0x1_0000_0000]
     s.me.ta = false ∧ (s.readG 1).toInt + (s.readG 2).toInt = 2 ^ 63 - 1 ∧ (s.readG 1).toInt + (s.readG 3).toInt = 2 ^ 63 ∧
     (s.readG 4).toInt - (s.readG 0).toInt = -(2 ^ 63) ∧ (s.readG 4).toInt - (s.readG 2).toInt = -(2 ^ 63) - 1 ∧
     (s.readG 4).toInt + (s.readG 5).toInt < -(2 ^ 63) ∧ 2 ^ 63 ≤ (s.readG 1).toInt - (s.readG 4).toInt ∧
     s.readG 5 ≠ 0 ∧ s.readG 0 = 0 ∧ (s.readG 5).setWidth 32 ≠ (0 : BitVec 32) ∧ (s.readG 6).setWidth 32 = 0#32) := by
  decide +kernel

/-- BranchesAndJumps: a target that is a multiple of 4 and one that is not. -/
theorem test_meets_BranchesAndJumps :
    let s := st [0, 0x2000, 0x2001]
    (s.readG 1 + (0xFFFC : BitVec 16).signExtend 64).toNat % 4 = 0 ∧ (s.readG 2 + (0 : BitVec 16).signExtend 64).toNat % 4 ≠ 0 ∧
    s.me.ta = false := by decide +kernel

/-- ScalarLoadsAndStores: a running strand and ordinary memory of each size, at 0 and at the last doubleword below the dump
region. -/
theorem test_meets_ScalarLoadsAndStores :
    let s := st [0, 0xBF_7FFF_FFF0, 15]
    s.me.run = .running ∧ ∀ p ∈ [(s.readG 1 + (8 : BitVec 16).signExtend 64, 8), (s.readG 1 + (12 : BitVec 16).signExtend 64, 4),
      (s.readG 1 + s.readG 2, 1), (s.readG 0 + s.readG 0, 2)], PlainAt s p.1 p.2 :=
  ⟨by decide +kernel, plain_all (by decide +kernel)⟩

/-- ScalarAccessTraps: misaligned at each size; odd at the edges of the control space, in it and outside; aligned at 2^52 with
translation off. -/
theorem test_meets_ScalarAccessTraps :
    (let s := st [0, 0x2001, 0x10_0000_0000_0000]
     s.me.ta = false ∧ s.me.root = 0 ∧ (s.readG 1 + (0 : BitVec 16).signExtend 64).toNat % 8 ≠ 0 ∧
     (s.readG 1 + (0 : BitVec 16).signExtend 64).toNat % 4 ≠ 0 ∧ (s.readG 1 + s.readG 0).toNat % 2 ≠ 0 ∧
     (s.readG 2 + (0 : BitVec 16).signExtend 64).toNat % 8 = 0 ∧ 2 ^ 52 ≤ (s.readG 2 + (0 : BitVec 16).signExtend 64).toNat ∧
     (s.readG 2 + s.readG 0).toNat % 2 = 0 ∧ 2 ^ 52 ≤ (s.readG 2 + s.readG 0).toNat) ∧
    ∀ n ∈ ([0xFEF_FFFF_FFFF, 0xFF0_0000_0001, 0xFFF_FFFF_FFFF, 0x1000_0000_0001] : List Nat),
      (st [0, BitVec.ofNat 64 n]).me.ta = false ∧ ((st [0, BitVec.ofNat 64 n]).readG 1 + (st []).readG 0).toNat % 2 ≠ 0 := by
  decide +kernel

/-- PrefetchAndCacheMaintenance: translation off, the last line that is homed here, an ordinary line, and the supervisor level. -/
theorem test_meets_PrefetchAndCacheMaintenance :
    let s := (st [0, 0x2001, 0x4FF_FFFF_FFFF]).mapMe fun x => { x with pl := true }
    (s.me.root = 0 ∧ s.me.pl = true ∧ homedHere (s.readG 2 + (0 : BitVec 16).signExtend 64).toNat = true ∧
      s.heldHalves (s.readG 2 + (0 : BitVec 16).signExtend 64).toNat = []) ∧ PlainAt s (s.readG 1) 1 :=
  ⟨by decide +kernel, plain_of (p := (_, 1)) (by decide +kernel)⟩

/-- A strand with a reservation of the doubleword at 0x2000 made at cycle 0, in scope 1 of its own tile, at a given cycle. -/
def reservedAt (cycle : Nat) : State :=
  (((st [0, 0x2000, 5]).mapMe fun x =>
    { x with resv := some { addr := 0x2000, dbl := true, pa := 0x2000, since := 0 },
             scopes := x.scopes.set 1 { Scope.empty with tiles := 1 } }).mapDie 0 fun d => { d with cycles := 1000 * cycle })

/-- Atomics: ready without an ordering and with both in a scope that holds the tile, ordinary memory of both sizes, a reservation
in its last cycle, and the same one cycle later. -/
theorem test_meets_Atomics :
    (let s := reservedAt 4095
     (s.me.run = .running ∧ ((s.me.scopes.getD (1 : BitVec 4).toNat Scope.empty).hasTile s.myTile s.myTile = true ∧
       s.me.outst = [] ∧ s.owesTrigger s.cur = false)) ∧ (AtomicReady s ⟨.none, true, 0⟩ ∧ AtomicReady s ⟨.aqrl, false, 1⟩) ∧
     (∀ p ∈ [(s.readG 1, 8), (s.readG 1, 4)], PlainAt s p.1 p.2) ∧
     ∃ r, s.me.resv = some r ∧ r.addr = s.readG 1 ∧ r.dbl = true ∧ r.pa = (s.readG 1).toNat ∧
       (s.die (dieOfStrand s.cur)).cycles / 1000 < r.since + 4096) ∧
    (let s := reservedAt 4096
     s.me.run = .running ∧ PlainAt s (s.readG 1) 8 ∧
     ¬ ∃ r, s.me.resv = some r ∧ r.addr = s.readG 1 ∧ r.dbl = true ∧ r.pa = (s.readG 1).toNat ∧
       (s.die (dieOfStrand s.cur)).cycles / 1000 < r.since + 4096) := by
  have ready : (reservedAt 4095).me.run = .running ∧
      (((reservedAt 4095).me.scopes.getD (1 : BitVec 4).toNat Scope.empty).hasTile (reservedAt 4095).myTile
        (reservedAt 4095).myTile = true ∧ (reservedAt 4095).me.outst = [] ∧
        (reservedAt 4095).owesTrigger (reservedAt 4095).cur = false) := by decide +kernel
  refine ⟨⟨ready, ⟨⟨.inl rfl, fun _ => ready.2.2⟩, ⟨.inr ready.2.1, fun _ => ready.2.2⟩⟩, plain_all (by decide +kernel),
    { addr := 0x2000, dbl := true, pa := 0x2000, since := 0 }, by decide +kernel⟩,
    by decide +kernel, plain_of (p := (_, 8)) (by decide +kernel), ?_⟩
  rintro ⟨r, h, -, -, -, hr⟩
  have : (some r).map (fun r => r.since) = some 0 := by rw [← h]; decide +kernel
  have h0 : r.since = 0 := by simpa using this
  have h1 : ((reservedAt 4096).die (dieOfStrand (reservedAt 4096).cur)).cycles / 1000 = 4096 := by decide +kernel
  omega

/-- VectorIntegerResults: the width that is set, for a signed and an unsigned type. -/
theorem test_meets_VectorIntegerResults :
    (vec (st []) 1 .w64 32).ewBits = intW .s64 ∧ (vec (st []) 8 .w8 2048).ewBits = intW .n8 := by decide +kernel

/-- VectorPermutesAndMasks: a row length from 1 to VL at both ends, and an index below VLMAX and one at it. -/
theorem test_meets_VectorPermutesAndMasks :
    let s := vec (st [0, 1, 64, 63]) 1 .w32 64
    s.ewBits = intW .s32 ∧ 1 ≤ (s.readG 1).toNat ∧ (s.readG 2).toNat ≤ s.vlen ∧ (s.readG 3).toNat < s.held * 2048 / intW .s32 ∧
    s.held * 2048 / intW .s32 ≤ (s.readG 2).toNat := by decide +kernel

/-- VectorFlaggedResults and VectorCompares: the width of an integer and of a floating type. -/
theorem test_meets_VectorFlaggedResults :
    let s := vec (st []) 8 .w16 1024
    s.ewBits = intW .s16 ∧ s.ewBits = (fmtOf .bf16).bits := by decide +kernel

/-- VectorWideningResults: the width of the destination, for integers, for floating types and for the dot forms. -/
theorem test_meets_VectorWideningResults :
    let s := vec (st []) 2 .w32 128
    s.ewBits = 2 * intW (wintTy .s16) ∧ s.ewBits = (fwFmts .bf16).2.bits ∧ s.ewBits = 32 := by decide +kernel

/-- VectorCompares: the width of an integer and of a floating type. -/
theorem test_meets_VectorCompares :
    let s := vec (st []) 1 .w64 32
    s.ewBits = intW .n64 ∧ s.ewBits = (fmtOf .f64).bits := by decide +kernel

/-- VectorConversions: the wider width, for an exact and for a narrowing pair. -/
theorem test_meets_VectorConversions :
    let s := vec (st []) 1 .w32 64
    let wide := cvtPair (.toF32 .bf16)
    let narrow := cvtPair (.fromF32 .bf16)
    s.ewBits = max wide.1.bits wide.2.bits ∧ narrowing (wide.1, wide.2) = false ∧
    s.ewBits = max narrow.1.bits narrow.2.bits ∧ narrowing (narrow.1, narrow.2) = true := by decide +kernel

/-- VectorReductionsAndScans: the width of the type, with and without a lane group. -/
theorem test_meets_VectorReductionsAndScans :
    (vec (st []) 1 .w32 64).ewBits = intW .s32 ∧ (vec (st []) 0 .w32 64).ewBits = (fmtOf .f32).bits ∧
    (vec (st []) 0 .w32 64).held = 0 ∧ (vec (st []) 1 .w32 64).held ≠ 0 := by decide +kernel

/-- WidthAndAccumulatorTraps: at EW 32 a type of another width of each kind of form, and at EW 64 the forms whose width is 32 or
16; an accumulator that is free and one of another strand. -/
theorem test_meets_WidthAndAccumulatorTraps :
    (let s := (vec (st []) 1 .w32 64).mapTile 0 fun y => { y with accOwner := y.accOwner.set 3 (some 1) }
     s.me.ta = false ∧ s.ewBits ≠ intW .s16 ∧ s.ewBits ≠ (fmtOf .f64).bits ∧ s.ewBits ≠ 2 * intW (wintTy .s8) ∧
     s.ewBits ≠ max (cvtPair (.iToI .s8 .narrow)).1.bits (cvtPair (.iToI .s8 .narrow)).2.bits ∧ s.ewBits ≠ widthBits .w6 ∧
     s.ewBits ≠ width4Bits .w64 ∧ s.ewBits ≠ sendBits .w64 ∧ s.ewBits ≠ 16 ∧
     (s.tile s.myTile).accOwner.getD (2 : AccN).toNat none ≠ some (subOf s.cur) ∧
     (s.tile s.myTile).accOwner.getD (3 : AccN).toNat none ≠ some (subOf s.cur)) ∧
    let s := vec (st []) 1 .w64 32
    s.me.ta = false ∧ s.ewBits ≠ (fwFmts .bf16).2.bits ∧ s.ewBits ≠ 32 ∧
      s.ewBits ≠ max (cvtPair (.toF32 .bf16)).1.bits (cvtPair (.toF32 .bf16)).2.bits := by decide +kernel

/-- VectorLoads: unit stride at width 8 and, packed, at width 6; strided and indexed by 0 and 1. -/
theorem test_meets_VectorLoads :
    (let s := vregs (vec (st [0, 0x2000, 16]) 1 .w8 3) [0, 0x020100]
     Fresh s ∧ (s.vlen ≠ 0 ∧ s.ewBits = widthBits .w8 ∧ (s.readG 1).toNat % unitBytes (widthBits .w8) = 0 ∧
       s.ewBits = width4Bits .w8 ∧ (s.readG 1).toNat % 1 = 0 ∧ (s.readG 2).toNat % 1 = 0) ∧
     (∀ e ∈ s.actives ⟨false, 0⟩, ∀ u ∈ plainUnits (s.readG 1) (widthBits .w8) e, PlainAt s u (unitBytes (widthBits .w8))) ∧
     (∀ e ∈ s.actives ⟨false, 0⟩, PlainAt s (s.readG 1 + BitVec.ofNat 64 e * s.readG 2) 1) ∧
     (∀ e ∈ s.actives ⟨false, 0⟩, PlainAt s (s.readG 1 + BitVec.ofNat 64 (s.elem 1 8 e * 1)) 1)) ∧
    (let s := vec (st [0, 0x2000]) 1 .w6 5
     Fresh s ∧ (s.vlen ≠ 0 ∧ s.ewBits = widthBits .w6 ∧ (s.readG 1).toNat % unitBytes (widthBits .w6) = 0) ∧
     (∀ e ∈ s.actives ⟨false, 0⟩, ∀ u ∈ plainUnits (s.readG 1) (widthBits .w6) e, PlainAt s u (unitBytes (widthBits .w6)))) :=
  ⟨⟨⟨rfl, rfl⟩, by decide +kernel, plain_each (by decide +kernel), plain_list (by decide +kernel),
    plain_list (by decide +kernel)⟩, ⟨⟨rfl, rfl⟩, by decide +kernel, plain_each (by decide +kernel)⟩⟩

/-- VectorStores: a running strand; unit stride, strided and scattered at width 16; 4-bit elements. -/
theorem test_meets_VectorStores :
    (let s := vregs (vec (st [0, 0x2000, 16]) 1 .w16 2) [0, 0x00020001]
     Fresh s ∧ (s.vlen ≠ 0 ∧ s.me.run = .running ∧ s.ewBits = width4Bits .w16 ∧ (s.readG 1).toNat % 2 = 0 ∧
       (s.readG 2).toNat % 2 = 0) ∧ (∀ e ∈ s.actives ⟨false, 0⟩, PlainAt s (s.readG 1 + BitVec.ofNat 64 (e * 2)) 2) ∧
     (∀ e ∈ s.actives ⟨false, 0⟩, PlainAt s (s.readG 1 + BitVec.ofNat 64 e * s.readG 2) 2) ∧
     (∀ e ∈ s.actives ⟨false, 0⟩, PlainAt s (s.readG 1 + BitVec.ofNat 64 (s.elem 1 16 e * 2)) 2)) ∧
    (let s := vec (st [0, 0x2000]) 1 .w4 3
     Fresh s ∧ (s.ewBits = widthBits .w4 ∧ s.vlen ≠ 0 ∧ s.me.run = .running) ∧
     (∀ e ∈ s.actives ⟨false, 0⟩, ∀ u ∈ plainUnits (s.readG 1) (widthBits .w4) e, PlainAt s u 1)) :=
  ⟨⟨⟨rfl, rfl⟩, by decide +kernel, plain_list (by decide +kernel), plain_list (by decide +kernel),
    plain_list (by decide +kernel)⟩, ⟨rfl, rfl⟩, by decide +kernel, plain_each (by decide +kernel)⟩

/-- SegmentsAndFaultOnlyFirst: three fields of two elements, and a fault-only-first load whose elements are all ordinary. -/
theorem test_meets_SegmentsAndFaultOnlyFirst :
    let s := vec (st [0, 0x2000]) 1 .w32 2
    Fresh s ∧ (s.ewBits = width4Bits .w32 ∧ s.vlen ≠ 0 ∧ s.me.run = .running ∧ (s.readG 1).toNat % 4 = 0 ∧
      s.ewBits = widthBits .w32 ∧ (s.readG 1).toNat % unitBytes (widthBits .w32) = 0 ∧ s.me.root = 0) ∧
    (∀ u ∈ (s.actives ⟨false, 0⟩).flatMap fun e => (List.range 3).map fun f => s.readG 1 + BitVec.ofNat 64 ((3 * e + f) * 4),
      PlainAt s (id u) 4) ∧
    ∀ e ∈ s.actives ⟨false, 0⟩, ∀ u ∈ plainUnits (s.readG 1) (widthBits .w32) e, PlainAt s u (unitBytes (widthBits .w32)) :=
  ⟨⟨rfl, rfl⟩, by decide +kernel, plain_list (by decide +kernel), plain_each (by decide +kernel)⟩

/-- A strand whose two 32-bit elements at g1 lie on the two sides of the start of the dump region. -/
def edgeState : State := vec (st [0, 0xBF_7FFF_FFFC]) 1 .w32 2

theorem edge_units : plainUnits (edgeState.readG 1) (widthBits .w32) 0 = [0xBF_7FFF_FFFC] ∧
    plainUnits (edgeState.readG 1) (widthBits .w32) 1 = [0xBF_8000_0000] ∧ edgeState.actives ⟨false, 0⟩ = [0, 1] ∧
    plainB edgeState (0xBF_7FFF_FFFC, 4) = true := by decide +kernel

/-- SegmentsAndFaultOnlyFirst: a fault-only-first load that reaches the dump region at its second element. -/
theorem test_meets_SegmentsAndFaultOnlyFirst_trimmed :
    Fresh edgeState ∧ (edgeState.ewBits = widthBits .w32 ∧ edgeState.vlen ≠ 0 ∧
      (edgeState.readG 1).toNat % unitBytes (widthBits .w32) = 0 ∧ edgeState.me.root = 0) ∧
    (1 : Nat) ∈ edgeState.actives ⟨false, 0⟩ ∧ (∃ e ∈ edgeState.actives ⟨false, 0⟩, e < 1) ∧
    (∀ e ∈ edgeState.actives ⟨false, 0⟩, e < 1 → ∀ u ∈ plainUnits (edgeState.readG 1) (widthBits .w32) e,
      PlainAt edgeState u 4) ∧
    (∃ u ∈ plainUnits (edgeState.readG 1) (widthBits .w32) 1, 0xBF_8000_0000 ≤ u.toNat ∧ u.toNat < 0xC0_0000_0000) ∧
    ∀ u ∈ plainUnits (edgeState.readG 1) (widthBits .w32) 1, (0xBF_8000_0000 ≤ u.toNat ∧ u.toNat < 0xC0_0000_0000) ∨
      PlainAt edgeState u 4 := by
  obtain ⟨h0, h1, ha, hp⟩ := edge_units
  rw [h1, ha]
  refine ⟨⟨rfl, rfl⟩, by decide +kernel, by decide, ⟨0, by decide⟩, fun e _ he u hu => ?_, ⟨_, List.mem_singleton.mpr rfl, by decide⟩,
    fun u hu => .inl (by rw [List.mem_singleton.mp hu]; decide)⟩
  have he : e = 0 := by omega
  subst he
  rw [h0, List.mem_singleton] at hu
  subst hu
  exact plain_of hp

/-- WeightsSendsAndLaneSlices: ordinary bytes at EW 16; sends of index 3 tiles on at offset 8, and at the last offset; sends one
doubleword past the tile's 512 KiB and with a sum of 2^64; slice offsets at both ends of the 4 KiB. -/
theorem test_meets_WeightsSendsAndLaneSlices :
    (let s := vec (st [0, 0x2000]) 1 .w16 4
     Fresh s ∧ (s.ewBits = 16 ∧ s.vlen ≠ 0) ∧
     (∀ e ∈ s.actives ⟨false, 0⟩, ∀ u ∈ plainUnits (s.readG 1) (vlwSource .e4m3).1.bits e, PlainAt s u 1)) ∧
    (∀ g ∈ ([8, 0x7_FFF0] : List Nat),
     let s := vregs (vec (st [0, BitVec.ofNat 64 g]) 1 .w64 2) [0, (3 * 2 ^ 19 + 8) * (2 ^ 64 + 1)]
     let i (e : Nat) : Nat := s.elem 1 64 e
     let o (e : Nat) : Nat := (s.readG 1).toNat + i e % 2 ^ 19
     (s.me.resume = false ∧ s.me.part = none) ∧ s.vlen ≠ 0 ∧ s.ewBits = sendBits .w64 ∧ s.me.run = .running ∧
     (∀ e ∈ s.actives ⟨false, 0⟩, i e < 2 ^ 29 ∧ i e / 2 ^ 19 % 2 ^ 10 < 640 ∧ o e % 8 = 0 ∧ o e + 8 ≤ 0x8_0000 ∧
       s.mayReach s.myTile (.tile (i e / 2 ^ 19 % 2 ^ 10) (o e)) = true ∧
       s.isPoisoned (0xF00_2000_0000 + i e / 2 ^ 19 % 2 ^ 10 * 0x8_0000 + o e) 8 = false)) ∧
    (∀ g ∈ ([0x7_FFF8, 0xFFFF_FFFF_FFFF_FFF8] : List Nat),
     let s := vregs (vec (st [0, BitVec.ofNat 64 g]) 1 .w64 2) [0, (3 * 2 ^ 19 + 8) * (2 ^ 64 + 1)]
     let i (e : Nat) : Nat := s.elem 1 64 e
     let o (e : Nat) : Nat := (s.readG 1).toNat + i e % 2 ^ 19
     (s.me.resume = false ∧ s.me.part = none) ∧ s.vlen ≠ 0 ∧ s.ewBits = sendBits .w64 ∧ s.me.ta = false ∧ s.me.outst = [] ∧
     (0 ∈ s.actives ⟨false, 0⟩ ∧ ∀ e ∈ s.actives ⟨false, 0⟩, 0 ≤ e ∧ 64 * (e + 1) ≤ 16384 ∧ i e < 2 ^ 29 ∧
       i e / 2 ^ 19 % 2 ^ 10 < 640 ∧ o e % 8 = 0 ∧ 0x8_0000 < o e + 8)) ∧
    let s := vregs (vec (st [0, 0]) 1 .w64 2) [0, 511 * 2 ^ 64]
    let off (e : Nat) : Nat := (s.readG 1 + BitVec.ofNat 64 (s.elem 1 64 e * 8)).toNat
    (s.me.resume = false ∧ s.me.part = none) ∧ s.vlen ≠ 0 ∧ s.ewBits = width4Bits .w64 ∧
    (∀ e ∈ s.actives ⟨false, 0⟩, off e + 8 ≤ 4096 ∧ off e % 8 = 0 ∧
      s.isPoisoned (sliceKey s.myTile (laneOf (s.groupsOf s.cur) 64 e) + off e) 8 = false) ∧ off 1 + 8 = 4096 :=
  ⟨⟨⟨rfl, rfl⟩, by decide +kernel, plain_each (by decide +kernel)⟩, by decide +kernel⟩

/-- EmptyAccesses: VL = 0 at each width, and with an accumulator at EW 64 and at EW 16. -/
theorem test_meets_EmptyAccesses :
    ((vec (st []) 1 .w8 0).vlen = 0 ∧ (vec (st []) 1 .w8 0).ewBits = widthBits .w8 ∧ (vec (st []) 1 .w64 0).ewBits = sendBits .w64) ∧
    let s (w : Width) := (vec (st []) 1 w 0).mapTile 0 fun y => { y with accOwner := y.accOwner.set 2 (some 0) }
    ((s .w64).vlen = 0 ∧ ((s .w64).tile (s .w64).myTile).accOwner.getD (2 : AccN).toNat none = some (subOf (s .w64).cur) ∧
      (s .w64).ewBits = 64) ∧ (s .w16).vlen = 0 ∧ (s .w16).ewBits = 16 := by decide +kernel

/-- The tile in which strand 1 holds all eight lane groups. -/
def crowded (s : State) : State :=
  (s.setStrand 1 (strand0 [])).mapTile 0 fun t => { t with latc := Vector.replicate 8 (some 1) }

/-- Strand 1 issues while strand 0 stands at a word, with a plan. -/
def together (word : Nat) (plan : List Move) : State :=
  { wr ((st []).setStrand 1 (strand0 [])) 0x1000 [word] with plan := plan, cur := 1 }

/-- SetvlGrants: five free groups for 300 elements; none needed; none to be had beside a strand that holds all eight, at the
instruction and for a stalled strand that tries again; strand 1 tries again while strand 0 is not stalled; a request pending at
supervisor level; strand 0 at a SETVL of the cycle in which strand 1 issues one or tries again, stalled and to try again in it, and not. -/
theorem test_meets_SetvlGrants :
    (let s := st [0, 300]
     s.me.pend.preempt = none ∧ groupsFor (s.readG 1).toNat (widthBits .w32) = 5 ∧ s.groupsOf 0 = [] ∧
     (s.tile 0).freeGroups.length = 8 ∧ s.demand 0 = [] ∧ groupsFor (s.readG 0).toNat (widthBits .w32) = 0) ∧
    (let s := crowded ((st [0, 300]).mapMe fun x => { x with run := .stalled .w32 300 3 })
     (s.strand 0).run = .stalled .w32 300 3 ∧ (s.strand 0).pend.preempt = none ∧ groupsFor 300 (widthBits .w32) ≠ 0 ∧
     (s.groupsOf 0).length = 0 ∧ (s.tile 0).freeGroups.length = 0) ∧
    (let s := (st []).setStrand 1 { strand0 [] with run := .stalled .w32 300 3 }
     ((s.strand 1).run = .stalled .w32 300 3 ∧ (s.strand 1).pend.preempt = none ∧ (s.tile 0).freeGroups.length = 8) ∧
     ∀ j, j < 1 → tileOf j = tileOf 1 → ¬∃ w avl d, (s.strand j).run = .stalled w avl d) ∧
    (let s := (st [0, 300]).mapMe fun x => { x with pl := true, pend := { x.pend with preempt := some (0, false) } }
     s.me.pl = true ∧ s.me.pend.preempt ≠ none) ∧
    ((together 0x8000_0000 [.issue 0 0]).before 1 isSetvl true = some (.issue 0 0) ∧
     (together 0x8000_0000 [.event (.setvlRetry 1) 0, .issue 0 0]).before 1 isSetvl false = some (.issue 0 0) ∧
     ((together 0 [.event (.setvlRetry 0) 0]).setStrand 0 { strand0 [] with run := .stalled .w32 300 3 }).before 1 isSetvl true =
       some (.event (.setvlRetry 0) 0) ∧
     (together 0x8000_0000 [.issue 0 1]).before 1 isSetvl true = none ∧ (together 0x8000_0000 []).before 1 isSetvl false = none ∧
     (st []).before 0 isSetvl true = none) := by
  refine ⟨by decide +kernel, by decide +kernel, ⟨by decide +kernel, ?_⟩, by decide +kernel⟩
  rintro j hj - ⟨w, avl, d, h⟩
  obtain rfl : j = 0 := by omega
  have : (((st []).setStrand 1 { strand0 [] with run := .stalled .w32 300 3 }).strand 0).run = .running := by decide +kernel
  rw [this] at h
  cases h

/-- Strand 0 with accumulator 2, and strand 1 with accumulator 3. -/
def accs (s : State) : State := s.mapTile 0 fun y => { y with accOwner := (y.accOwner.set 2 (some 0)).set 3 (some 1) }

/-- Outstanding accesses: a store of two elements, a train to another tile, a store from accumulator 2, and another store. -/
def someOutst : List Outst :=
  [⟨.vector, 0, [(0x2000, false), (0x2008, false)]⟩, ⟨.train 171, 0, [(0x3000, true)]⟩, ⟨.acc 2, 0, [(0x2180, true)]⟩,
   ⟨.vector, 0, [(0x2010, false)]⟩]

/-- AccumulatorMoves: a free accumulator, one of another strand, one of its own, with no store from it outstanding and with one;
rows and columns at both ends at EW 32 and EW 64; strand 0 at an ACCON of the cycle in which strand 1 issues one. -/
theorem test_meets_AccumulatorMoves :
    let s (n : Nat) (w : Width) := accs (vec (st [0, 31, 63]) n w 64)
    let owner (u : State) (i : Nat) : Option (Fin 4) := (u.tile u.myTile).accOwner.getD i none
    owner (s 2 .w32) 1 = none ∧ owner (s 2 .w32) 3 = some 1 ∧ owner (s 2 .w32) 3 ≠ some (subOf (s 2 .w32).cur) ∧
    owner (s 2 .w32) 2 = some (subOf (s 2 .w32).cur) ∧ (s 2 .w32).vlen ≠ 0 ∧ (s 2 .w32).me.outst = [] ∧
    (∃ o ∈ someOutst, o.kind = .acc 2) ∧
    ((s 2 .w32).ewBits = 32 ∧ ((s 2 .w32).readG 2).toNat < 64 ∧ 64 * 1 + 64 ≤ (s 2 .w32).held * 2048 / 32) ∧
    ((s 2 .w64).ewBits = 64 ∧ ((s 2 .w64).readG 1).toNat < 32 ∧ 64 * 0 + 64 ≤ (s 2 .w64).held * 2048 / 64) ∧
    ((s 3 .w64).readG 2).toNat < 64 ∧ 64 * 1 + 32 ≤ (s 3 .w64).held * 2048 / 64 ∧
    (s 2 .w32).before 0 isAccon false = none ∧
    (together 0xC800_0000 [.issue 0 0]).before 1 isAccon false = some (.issue 0 0) := by decide +kernel

/-- Two strands of a tile issue in one cycle, each once: a third begins the next one; a SETVL lets the lower-numbered strand of its cycle
go first (R20, R33). -/
theorem test_issue_order :
    (∀ l ∈ ([[(1, 0), (2, 0)], [(0, 0)]] : List (List (Nat × Nat))),
      gives (step { wr (st []) 0x1000 [0x1060_0005] with plan := [.issue 0 0], issued := l })
        (fun t => t.readG 3 == 5 && t.clock == 1 && t.issued == [(0, 1)]) = true) ∧
    gives (step { wr (st []) 0x1000 [0x1060_0005] with plan := [.issue 0 0], issued := [(1, 0), (4, 0)] }) (fun t => t.clock == 0) = true ∧
    gives (exec (.setvl .w32 3 0) (together 0x8000_0000 [.issue 5 0, .issue 0 0]))
      (fun t => t.plan == [.issue 0 0, .issue 1 0, .issue 5 0]) = true := by decide +kernel

/-- An error ends one element of a store and leaves the other, and ends a train whole (R172, R181, R389); a load that completes leaves
its register final at supervisor level too (R143). -/
theorem test_deferred_errors :
    (let s := (st []).mapMe fun x => { x with outst := [⟨.vector, 0, [(0x2000, false), (0x2008, false)]⟩, ⟨.train 171, 0, [(0x3000, true), (0x3008, true)]⟩] }
     gives (exec (.deferredError 0 true 0x2000) s) (fun t => t.me.outst.map (·.addrs) == [[(0x2008, false)], [(0x3000, true), (0x3008, true)]] &&
       t.me.pend.deferred == [(0x18, 0x2000)]) = true ∧
     gives (exec (.deferredError 0 true 0x3008) s) (fun t => t.me.outst.map (·.addrs) == [[(0x2000, false), (0x2008, false)]]) = true) ∧
    gives (exec (.vld .w8 3 1 ⟨false, 0⟩) ((vec (st [0, 0x2000]) 1 .w8 2).mapMe fun x => { x with pl := true, partly := 9 }))
      (fun t => t.me.partly == 1) = true := by decide +kernel

/-- MatrixProducts: an accumulator of the strand's own at EW 32, at EW 64, and at VL = 0 without a lane group. -/
theorem test_meets_MatrixProducts :
    let s (n vl : Nat) (w : Width) := accs (vec (st []) n w vl)
    ((s 1 64 .w32).tile (s 1 64 .w32).myTile).accOwner.getD (2 : AccN).toNat none = some (subOf (s 1 64 .w32).cur) ∧
    ((s 1 64 .w32).ewBits = 32 ∧ 64 * 0 + 64 ≤ (s 1 64 .w32).held * 2048 / 32) ∧
    ((s 4 32 .w64).ewBits = 64 ∧ 64 * 1 + 64 ≤ (s 4 32 .w64).held * 2048 / 64) ∧
    ((s 0 5 .w32).ewBits = 32 ∧ min (s 0 5 .w32).vlen 64 = 0) := by decide +kernel

/-- AccumulatorMemory: two rows of two columns in ordinary memory, at each of the three sizes. -/
theorem test_meets_AccumulatorMemory :
    let s (w : Width) := masks (accs (vec (st [0, 0x2000, 0x100]) 1 w 2)) [3, 3]
    let cells : List (Nat × Nat) := [(0, 0), (0, 1), (1, 0), (1, 1)]
    let at_ (u : State) (z : Nat) (x : Nat × Nat) : Word := u.readG 1 + BitVec.ofNat 64 x.1 * u.readG 2 + BitVec.ofNat 64 (x.2 * z)
    Fresh (s .w32) ∧ ((s .w32).me.run = .running ∧
      ((s .w32).tile (s .w32).myTile).accOwner.getD (2 : AccN).toNat none = some (subOf (s .w32).cur) ∧ (s .w32).vlen ≠ 0 ∧
      ((s .w32).readG 1).toNat % 8 = 0 ∧ ((s .w32).readG 2).toNat % 8 = 0 ∧
      ((List.range (min (s .w32).vlen 64)).flatMap fun i => if ((s .w32).mask 0).getLsbD i then
        ((List.range 64).filter fun j => ((s .w32).mask 1).getLsbD j).map fun j => (i, j) else []) = cells) ∧
    (∀ x ∈ cells, PlainAt (s .w32) (at_ (s .w32) 4 x) 4) ∧ (∀ x ∈ cells, PlainAt (s .w32) (at_ (s .w32) 2 x) 2) ∧
    (∀ x ∈ cells, PlainAt (s .w64) (at_ (s .w64) 8 x) 8) :=
  ⟨⟨rfl, rfl⟩, by decide +kernel, plain_list (by decide +kernel), plain_list (by decide +kernel),
    plain_list (by decide +kernel)⟩

/-- Command 1: a copy of n bytes by strand 0's task. -/
def copyCmd (src dst n : Nat) (cpl : Word) : EngCmd :=
  { id := 1, kind := .cpy, strand := 0, task := 7, desc := 0x2040, cpl := cpl, value := 0x1122, words :=
      #v[BitVec.ofNat 64 src, BitVec.ofNat 64 dst, BitVec.ofNat 64 n, 0, 0, 0, 0, 0], scope := Scope.empty, root := 0, asid := 0,
    sup := false, since := 0, done := 0, aux := 0, begun := false, closed := false, told := false, early := [],
    run := EngRun.start, lines := [] }

/-- FencesAndEngineWait: scope 1 holds the tile; nothing outstanding, a store outstanding, and a write that waits for its
trigger; without and with a command of the task. -/
theorem test_meets_FencesAndEngineWait :
    (let s := reservedAt 0
     (s.me.scopes.getD (1 : BitVec 4).toNat Scope.empty).hasTile s.myTile s.myTile = true ∧
     (s.me.outst = [] ∧ s.owesTrigger s.cur = false) ∧ ∀ e ∈ s.cmds, e.2.task ≠ s.me.taskId) ∧
    (let s := (reservedAt 0).mapMe fun x => { x with outst := someOutst }
     (s.me.scopes.getD (1 : BitVec 4).toNat Scope.empty).hasTile s.myTile s.myTile = true ∧ s.me.outst ≠ []) ∧
    (let s := { reservedAt 0 with triggers := [{ die := 0, entry := 5, spans := [(0x2000, 8)], writer := some (.strand 0), slice := 0, due := 30 }] }
     ¬(s.me.outst = [] ∧ s.owesTrigger s.cur = false)) ∧
    (let s := { st [] with cmds := [(1, copyCmd 0x2100 0x2140 8 0)] }
     ∃ e ∈ s.cmds, e.2.task = s.me.taskId) := by decide +kernel

/-- The strand asleep on the doubleword at 0x2000 until it is 5, since cycle 0, with a time limit of 64 cycles. -/
def asleep (woken : Bool) (cycle : Nat) : State :=
  ((reservedAt cycle).mapMe fun x => { x with run := .sleeping .eq true 0x2000 5 64 0 64 woken })

/-- WaitsAndWakes: a word that meets its condition and one that does not; sleepers woken, with the condition met and not met,
and one at its time limit; a write to the sleeper's line and one to the line after it; a reservation on either. -/
theorem test_meets_WaitsAndWakes :
    (let s := wr (st [0, 0x2000, 5]) 0x2000 [5]
     PlainAt s (s.readG 1) 8 ∧ wordAt s (s.readG 1) = s.readG 2 ∧ wordAt s (s.readG 1) ≠ s.readG 0) ∧
    (let s := wr (asleep true 0) 0x2000 [5]
     (s.strand 0).run = .sleeping .eq true 0x2000 5 64 0 64 true ∧ PlainAt { s with cur := 0 } 0x2000 8 ∧ wordAt s 0x2000 = 5 ∧
     wordAt (asleep true 0) 0x2000 ≠ 5) ∧
    (let s := asleep false 64
     (s.strand 0).run = .sleeping .eq true 0x2000 5 64 0 64 false ∧ PlainAt { s with cur := 0 } 0x2000 8 ∧ (64 : Word) ≠ 0 ∧
     0 + (64 : Word).toNat ≤ (s.die (dieOfStrand 0)).cycles / 1000) ∧
    (let s := asleep false 0
     (lineOf 0x2078 ≤ 64 ∧ 64 ≤ lineOf (0x2078 + 8 - 1)) ∧ ¬(lineOf 0x2080 ≤ 64 ∧ 64 ≤ lineOf (0x2080 + 8 - 1)) ∧
     s.me.resv = some { addr := 0x2000, dbl := true, pa := 0x2000, since := 0 } ∧ (none : Option Asker) ≠ some (.strand 0) ∧
     some (Asker.strand 5) ≠ some (.strand 0)) := by
  exact ⟨⟨plain_of (p := (_, 8)) (by decide +kernel), by decide +kernel⟩,
    ⟨by decide +kernel, plain_of (p := (_, 8)) (by decide +kernel), by decide +kernel⟩,
    ⟨by decide +kernel, plain_of (p := (_, 8)) (by decide +kernel), by decide +kernel⟩, by decide +kernel⟩

/-- A trigger of a write of eight bytes at 0x2000, on its way to entry 5 of die 0. -/
def ownTrigger (w : Asker) : Trigger := { die := 0, entry := 5, spans := [(0x2000, 8)], writer := some w, slice := 0, due := 30 }

/-- OutstandingAccesses: the oldest store first, with no write that waits for its trigger and with one, the oldest train behind it; an
address of the train, poisoned at any time, and with a timeout from its 100 µs on but not a nanosecond before; the last element of a
store of two, and the one of a store of one; an address that nothing outstanding has; a reservation that ends at cycle 4,096; a lost
response to a load whose line is homed on another die, at its first try, before and at its limit, and one that a stream awaits. -/
theorem test_meets_OutstandingAccesses :
    (let s (clock : Nat) := { (reservedAt 4096).mapMe fun x => { x with outst := someOutst } with clock := clock }
     let x (clock : Nat) := ((s clock).strand 0).outst
     let hit (clock : Nat) (addr : Word) (poison : Bool) (o : Outst) : Prop := ∃ far, (addr, far) ∈ o.addrs ∧
       (poison = true ∨ far = true ∧ o.since + 100_000 ≤ (s clock).clock)
     x 0 = [] ++ someOutst.headD ⟨.vector, 0, []⟩ :: someOutst.tail ∧
     x 0 = someOutst.take 1 ++ someOutst.getD 1 ⟨.vector, 0, []⟩ :: someOutst.drop 2 ∧
     (someOutst.getD 1 ⟨.vector, 0, []⟩).kind = .train 171 ∧ (someOutst.map fun o => o.kind) = [.vector, .train 171, .acc 2, .vector] ∧
     ((someOutst.map fun o => decide (hit 0 0x3000 true o)) = [false, true, false, false]) ∧
     ((someOutst.map fun o => decide (hit 100_000 0x3000 false o)) = [false, true, false, false]) ∧
     (someOutst.getD 0 ⟨.vector, 0, []⟩).addrs = [(0x2000, false)] ++ (0x2008, false) :: [] ∧
     (someOutst.getD 2 ⟨.vector, 0, []⟩).addrs = [] ++ (0x2180, true) :: [] ∧
     (∀ o ∈ x 99_999, ¬hit 99_999 0x3000 false o) ∧ (∀ o ∈ x 0, ¬hit 0 0x4000 true o) ∧ dieOfStrand 0 < 4 ∧
     ((s 0).strand 0).resv = some { addr := 0x2000, dbl := true, pa := 0x2000, since := 0 } ∧
     0 + 4096 ≤ ((s 0).die (dieOfStrand 0)).cycles / 1000 ∧ (s 0).owesTrigger 0 = false ∧
     { s 0 with triggers := [ownTrigger (.strand 0)] }.owesTrigger 0 = true) ∧
    (let s (l : Option (Bool × Option (Asker × Nat))) (clock : Nat) :=
       { (st [0, 0x2000, 0x2180]).mapMe fun x => { x with lost := l } with clock := clock }
     let va := (s none 0).readG 1 + (0x180 : BitVec 16).signExtend 64
     let u := s (some (true, some (.strand 0, 5))) 100_004
     let other := s (some (true, some (.stream 4, 5))) 100_004
     PlainAt { u with strands := u.strands.put u.cur { u.me with lost := none } } va 8 ∧
     (s (some (true, none)) 0).me.lost = some (true, none) ∧ u.me.lost = some (true, some (.strand u.cur, 5)) ∧ u.clock < 5 + 100_000 ∧
     5 + 100_000 ≤ (s (some (true, some (.strand 0, 5))) 100_005).clock ∧ u.me.part = none ∧
     other.me.lost = some (true, some (.stream 4, 5)) ∧ Asker.stream 4 ≠ .strand other.cur ∧ (va.toNat / 128) % 12 / 3 ≠ dieOfStrand u.cur) :=
  ⟨by decide +kernel, plain_of (p := (_, 8)) (by decide +kernel), by decide +kernel⟩

/-- CsrAccess: every register of each clause reads at the level that may access it. -/
theorem test_meets_CsrAccess :
    (∀ n ∈ [0x000, 0x001, 0x002, 0x003, 0x005, 0x006, 0x007, 0x008, 0x009, 0x00A, 0x00B, 0x00C, 0x00D, 0x00E, 0x100, 0x109,
        0x10A, 0x1F0, 0x1FA], ((st []).readCsr 0 n).isSome = true ∧ field (BitVec.ofNat 12 n) 10 2 ≠ 2) ∧
    (∀ n ∈ [0x800, 0x801, 0x802, 0x803, 0x804, 0x805, 0x806, 0x807, 0x808, 0x810, 0x811, 0x812],
      ((st []).readCsr 0 n).isSome = true ∧ field (BitVec.ofNat 12 n) 10 2 = 2) ∧
    ((st []).mapMe fun x => { x with pl := true }).me.pl = true := by decide +kernel

/-- TrapEntry and InstructionTraps: TA = 0; a pc at 2^52 with translation off; user level and a supervisor register. -/
theorem test_meets_InstructionTraps :
    let s := (st []).mapMe fun x => { x with pc := 0x10_0000_0000_0000 }
    (s.strand 0).ta = false ∧ s.me.ta = false ∧ s.me.root = 0 ∧ 2 ^ 52 ≤ s.me.pc.toNat ∧ s.me.pl = false ∧
    (s.readCsr s.cur (0x800 : BitVec 12).toNat).isSome ∧ field (0x800 : BitVec 12) 10 2 = 2 := by decide +kernel

/-- DoubleTrapAndAbort: TA = 1 and the supervisor level, a task without a gang, without and with a completion word, and with a store
outstanding and none. -/
theorem test_meets_DoubleTrapAndAbort :
    let s := accs ((vec (st []) 2 .w32 5).mapMe fun x => { x with ta := true, pl := true })
    let c := (st []).mapMe fun x => { x with task := some { task0 with words := #v[0, 0, 0x3000, 0, 0, 0, 0, 0] } }
    (s.strand 0).ta = true ∧ s.cplAddr 0 = 0 ∧ (s.strand 0).task = some task0 ∧ task0.gang = none ∧ s.ownsActive 0 = none ∧
    s.ownsShadow 0 = none ∧ (∀ p, p < 16 → (s.port (tileOf 0) p).st = .unbound) ∧ s.me.pl = true ∧
    task0.words[2] = 0 ∧ (c.me.outst = [] ∧ c.owesTrigger c.cur = false) ∧ (c.mapMe fun x => { x with outst := someOutst }).me.outst ≠ [] ∧
    PlainAt c 0x3000 8 := by
  refine ⟨?_, ?_, ?_, rfl, ?_, ?_, ?_, ?_, rfl, ?_, ?_, plain_of (p := (_, 8)) ?_⟩ <;> decide +kernel

/-- ReturnFromTrap: the supervisor level, no load, no port; translation off, a deferred trap, and translation on after another; the
counters of an access that goes on, and a row of 0. -/
theorem test_meets_ReturnFromTrap :
    let s := (st []).mapMe fun x => { x with ta := true, pl := true, epc := 0x5000 }
    s.me.pl = true ∧ s.ownsActive s.cur = none ∧ s.ownsShadow s.cur = none ∧ (∀ x ∈ (s.tile s.myTile).ports, x.reported = false) ∧
    s.me.root = 0 ∧ (s.mapMe fun x => { x with def_ := true }).me.def_ = true ∧ s.me.ppl = false ∧ s.me.def_ = false ∧
    (s.mapMe fun x => { x with tlg := x.tlg.set 7 64 }).me.tlg.getD 7 0 ≠ 0 ∧ s.me.trow = 0 ∧ s.me.lost = none ∧
    ((s.mapMe fun x => { x with root := 0x10 }).me.root ≠ 0 ∧ (s.mapMe fun x => { x with root := 0x10 }).me.def_ = false) := by
  decide +kernel

/-- A page table at 0x10000 whose five levels lead to the leaves of the pages 1 to 7 of 4 KiB: one with every permission; the
same; none; a malformed one; one with A clear; one that can only be read; one with D clear. -/
def pagedState : State :=
  wr (wr (wr (wr (wr ((st [0, 0x2008, 0x3008, 0x4008, 0x5008, 0x6008, 0x7008]).mapMe fun x => { x with root := 0x10 })
    0x1_0000 [0x1_1001]) 0x1_1000 [0x1_2001]) 0x1_2000 [0x1_3001]) 0x1_3000 [0x1_4001])
    0x1_4008 [0x71BF, 0x71BF, 0, 0x79BF, 0x713F, 0x70A7, 0x70BF]

/-- The entry of level l and the table's base there, on a walk of the state's table. -/
def pathAt (va : Word) : Nat → Nat
  | 0 => 0x1_0000
  | n + 1 => pteBase (pteAt pagedState (entryAddr va (4 - n) (pathAt va n)))

/-- The four pointers on the way to a page below 2 MiB. -/
theorem paged_pointers {va : Word} (h : ([0x2008, 0x3008, 0x4008, 0x5008, 0x6008, 0x7008] : List Nat).contains va.toNat = true) :
    ∀ n, n < 4 → PlainFor pagedState 0 0 (BitVec.ofNat 64 (entryAddr va (4 - n) (pathAt va n))) 8 ∧
      PointerAt (4 - n) (pteAt pagedState (entryAddr va (4 - n) (pathAt va n))) := by
  have key : ([0x2008, 0x3008, 0x4008, 0x5008, 0x6008, 0x7008] : List Nat).all (fun v => (List.range 4).all fun n =>
      plainForB pagedState 0 0 (BitVec.ofNat 64 (entryAddr (BitVec.ofNat 64 v) (4 - n) (pathAt (BitVec.ofNat 64 v) n))) 8 &&
      (let e := pteAt pagedState (entryAddr (BitVec.ofNat 64 v) (4 - n) (pathAt (BitVec.ofNat 64 v) n))
       decide (e.getLsbD 0 = true ∧ e.getLsbD 1 = false ∧ 0 < 4 - n ∧ e.toNat / 2 ^ 2 % 2 ^ 10 = 0 ∧
         e.toNat / 2 ^ 52 % 2 ^ 8 = 0))) = true := by decide +kernel
  intro n hn
  have hv := List.all_eq_true.mp key _ (List.contains_iff_mem.mp h)
  rw [BitVec.ofNat_toNat, BitVec.setWidth_eq] at hv
  have hb := List.all_eq_true.mp hv n (List.mem_range.mpr hn)
  rw [Bool.and_eq_true] at hb
  exact ⟨plainFor_of hb.1, by simpa only [decide_eq_true_eq, PointerAt] using hb.2⟩

/-- The walk of a page whose leaf is well formed. -/
theorem paged_walk {va : Word} (h : ([0x2008, 0x3008, 0x4008, 0x5008, 0x6008, 0x7008] : List Nat).contains va.toNat = true)
    (hp : plainForB pagedState 0 0 (BitVec.ofNat 64 (entryAddr va 0 (pathAt va 4))) 8 = true)
    (hl : LeafAt 0 (pteAt pagedState (entryAddr va 0 (pathAt va 4)))) :
    WalksTo pagedState 0 0 va 4 0x1_0000 (pteAt pagedState (entryAddr va 0 (pathAt va 4))) (entryAddr va 0 (pathAt va 4)) := by
  have p := paged_pointers h
  exact .pointer (p 0 (by decide)).1 (p 0 (by decide)).2 (.pointer (p 1 (by decide)).1 (p 1 (by decide)).2
    (.pointer (p 2 (by decide)).1 (p 2 (by decide)).2 (.pointer (p 3 (by decide)).1 (p 3 (by decide)).2
      (.leaf (plainFor_of hp) hl))))

/-- The walk of a page whose last entry is not valid or malformed. -/
theorem paged_end {va : Word} {bad : Bool}
    (h : ([0x2008, 0x3008, 0x4008, 0x5008, 0x6008, 0x7008] : List Nat).contains va.toNat = true)
    (hp : plainForB pagedState 0 0 (BitVec.ofNat 64 (entryAddr va 0 (pathAt va 4))) 8 = true)
    (hb : (pteAt pagedState (entryAddr va 0 (pathAt va 4))).getLsbD 0 = bad)
    (hn : ¬PointerAt 0 (pteAt pagedState (entryAddr va 0 (pathAt va 4))))
    (hl : ¬LeafAt 0 (pteAt pagedState (entryAddr va 0 (pathAt va 4)))) : WalkEnds pagedState 0 0 va bad 4 0x1_0000 := by
  have p := paged_pointers h
  exact .pointer (p 0 (by decide)).1 (p 0 (by decide)).2 (.pointer (p 1 (by decide)).1 (p 1 (by decide)).2
    (.pointer (p 2 (by decide)).1 (p 2 (by decide)).2 (.pointer (p 3 (by decide)).1 (p 3 (by decide)).2
      (.here (plainFor_of hp) hb hn hl))))

/-- Translation: PAGE_WALK of a leaf with A set, of one with A clear, of an entry that is not valid and of a malformed one; a load
that walks on each of the first, third and fourth. -/
theorem test_meets_Translation_walks :
    (pagedState.me.root ≠ 0 ∧ pagedState.me.walks = [] ∧ (0x7008 : Word).toNat < 2 ^ 57) ∧
    (∃ e a, WalksTo pagedState 0 0 0x2008 4 0x1_0000 e a ∧ Permits e .load false ∧ e.getLsbD 7 = true) ∧
    (∃ e a, WalksTo pagedState 0 0 0x5008 4 0x1_0000 e a ∧ Permits e .load false ∧ e.getLsbD 7 = false) ∧
    (∃ e a, WalksTo pagedState 0 0 0x6008 4 0x1_0000 e a ∧ ¬Permits e .store false) ∧
    WalkEnds pagedState 0 0 0x3008 false 4 0x1_0000 ∧ WalkEnds pagedState 0 0 0x4008 true 4 0x1_0000 := by
  refine ⟨by decide +kernel, ⟨_, _, paged_walk ?_ ?_ ?_, ?_, ?_⟩, ⟨_, _, paged_walk ?_ ?_ ?_, ?_, ?_⟩,
    ⟨_, _, paged_walk ?_ ?_ ?_, ?_⟩, paged_end ?_ ?_ ?_ ?_ ?_, paged_end ?_ ?_ ?_ ?_ ?_⟩ <;>
    first | decide +kernel | (simp only [LeafAt, PointerAt, Permits]; decide +kernel)

/-- An entry of the state's table as the buffers hold it. -/
def leafOf (page : Nat) : TlbEnt :=
  entryFor 0 (BitVec.ofNat 64 (page * 4096)) (pteAt pagedState (0x1_4000 + 8 * page)) (0x1_4000 + 8 * page)

/-- The same state with the leaves of pages 1, 2, 6 and 7 in the first-level buffer. -/
def bufferedState (pc : Word) : State :=
  (pagedState.mapMe fun x => { x with pc := pc }).mapTile 0 fun y => { y with l1tlb := [leafOf 1, leafOf 2, leafOf 6, leafOf 7] }

/-- Whether an entry is the only one of the first-level buffer that serves an address. -/
def onlyB (s : State) (va : Word) (e : TlbEnt) : Bool :=
  let l := (s.tile s.myTile).l1tlb
  let serves (x : TlbEnt) : Bool := (x.glob || x.asid == s.me.asid) && decide (x.va ≤ va.toNat ∧ va.toNat < x.va + x.size)
  l.contains e && serves e && l.all fun f => !serves f || f == e

/-- Translation: accesses through the buffer's entries, of a page with every permission, of one that can only be read and of one
with D clear; fetches from a page that may run and from one that may not; an address in no buffer; a root in the Cellar's far
end. -/
theorem test_meets_Translation_buffers :
    let s := bufferedState 0x1000
    (s.me.run = .running ∧ s.me.root ≠ 0 ∧ s.me.kept = [] ∧ s.me.lost = none ∧ s.me.ta = false ∧
      onlyB s 0x2008 (leafOf 2) = true ∧ onlyB s 0x6008 (leafOf 6) = true ∧ onlyB s 0x7008 (leafOf 7) = true ∧
      onlyB s s.me.pc (leafOf 1) = true ∧ onlyB (bufferedState 0x6000) (bufferedState 0x6000).me.pc (leafOf 6) = true ∧
      (leafOf 2).pte.getLsbD 8 = true ∧ (leafOf 7).pte.getLsbD 8 = false ∧ pteAt s (leafOf 7).at_ = (leafOf 7).pte ∧
      (∀ f ∈ (s.tile 0).l1tlb ++ (s.tile 0).tlb, ¬((f.glob = true ∨ f.asid = s.me.asid) ∧ f.va ≤ (0x5008 : Word).toNat ∧
        (0x5008 : Word).toNat < f.va + f.size))) ∧
    Permits (leafOf 2).pte .load s.me.pl ∧ Permits (leafOf 2).pte .store s.me.pl ∧ ¬Permits (leafOf 6).pte .store s.me.pl ∧
    Permits (leafOf 7).pte .store s.me.pl ∧ Permits (leafOf 1).pte .fetch s.me.pl ∧ ¬Permits (leafOf 6).pte .fetch s.me.pl ∧
    (∀ p ∈ ([(0x7008, 8), (BitVec.ofNat 64 (leafOf 7).at_, 8), (0x7000, 4)] : List (Word × Nat)), PlainFor s s.myTile 0 p.1 p.2) ∧
    0x500_0000_0000 ≤ ((st []).mapMe fun x => { x with root := 0x5000_0000 }).me.root.toNat * 4096 := by
  refine ⟨by decide +kernel, ?_, ?_, ?_, ?_, ?_, ?_, plainFor_all (by decide +kernel), by decide +kernel⟩ <;>
    (simp only [Permits]; decide +kernel)

/-- Translation: TLBI at supervisor level with nothing and with something outstanding, and with a translation held for a resumed
access of a strand, of a cell, and for an access that a cell has fired. -/
theorem test_meets_Translation_tlbi :
    let e : TlbEnt := { asid := 3, glob := false, va := 0x4000, size := 0x1000, pa := 0x7000, pte := 0x71BF, at_ := 0x1_4020 }
    let s := (st [0, 0x4FF8]).mapMe fun x => { x with pl := true }
    (s.me.pl = true ∧ s.me.outst = [] ∧ s.owesTrigger s.cur = false ∧ (∀ x ∈ s.strands, x.2.kept = []) ∧ s.kept = [] ∧ s.tiles = []) ∧
    someOutst ≠ [] ∧ (e.va ≤ (s.readG 1).toNat ∧ (s.readG 1).toNat < e.va + e.size) ∧
    (∃ x ∈ ((st []).mapMe fun x => { x with kept := [(0, e)] }).strands, ∃ y ∈ x.2.kept, y.2 = e) ∧
    (∃ x ∈ { st [] with kept := [(.cell 1 9, e)] }.kept, x.2 = e) := by decide +kernel

/-- EngineCommands: operands misaligned each in turn; a descriptor that is malformed; one that is accepted, with room and
without; and a strand that waits for room, with it and without. -/
theorem test_meets_EngineCommands :
    let s := wr (st [0, 0x2040, 0x2010, 5, 0x2080]) 0x2040 [0x2100, 0x2140, 8, 0, 0, 0, 0, 0, 0, 0, 0, 1, 0, 0, 0, 0]
    let full := { s with cmds := [(1, copyCmd 0 0 0 0), (2, copyCmd 0 0 0 0), (3, copyCmd 0 0 0 0), (4, copyCmd 0 0 0 0)] }
    (s.me.ta = false ∧ (s.readG 2).toNat % 64 ≠ 0 ∧ (s.readG 3).toNat % 8 ≠ 0 ∧ (s.readG 1).toNat % 64 = 0 ∧
      (s.readG 2).toNat % 8 = 0 ∧ descriptorOk .cpy (recordAt s (s.readG 1)) = true ∧
      descriptorOk .cpy (recordAt s (s.readG 4)) = false ∧ s.canAccept (copyCmd 0x2100 0x2140 8 0) = true ∧
      full.canAccept (copyCmd 0x2100 0x2140 8 0) = false ∧
      (((st []).mapMe fun x => { x with run := .accepting (copyCmd 0 0 0 0) }).strand 0).run = .accepting (copyCmd 0 0 0 0)) ∧
    ∀ p ∈ [(s.readG 1, 64), (s.readG 4, 64)], PlainAt s p.1 p.2 :=
  ⟨by decide +kernel, plain_all (by decide +kernel)⟩

/-- EngineEnds: a copy of 3 bytes to the byte after its source, homed on another die, with a completion word; the time just before
its 100 µs and at them; a copy of no bytes; a write of the command that waits for its trigger, and none; no watch entry armed; a
command of a task that runs; a bag of one entry. -/
theorem test_meets_EngineEnds :
    let c := copyCmd 0x2181 0x2182 3 0x2010
    let bag := { copyCmd 0 0 0 0 with kind := .sfbag, words := #v[0x8000, 0x9000, 0xA000, 0xB000, 0xC000, 1, 0x1000_0000_0000_0000, 0] }
    let s := { st [] with cmds := [(1, c), (2, bag)], clock := 100_000 }
    (s.cmds.get? 1 = some c ∧ c.id = 1 ∧ c.kind = .cpy ∧ c.root = 0 ∧ c.done = 0 ∧ c.early = [] ∧ c.begun = false ∧ c.told = false ∧ c.run.seen = [] ∧
      field (copyCmd 0x2181 0x2182 0 0x2010).words[2] 0 40 = 0 ∧ s.owes (.command 1) = false ∧
      { s with triggers := [ownTrigger (.command 1)] }.owes (.command 1) = true ∧
      (∀ d, d < 4 → ∀ e ∈ (s.die d).watch, e.2.armed = false) ∧
      field c.words[7] 54 2 = 0 ∧ field c.words[2] 0 40 = 3 ∧ c.words[0].toNat + 3 < 2 ^ 57 ∧ c.desc.toNat % 64 = 0 ∧
      (c.desc.toNat + 56 + 8 ≤ 0x2182 ∧ c.cpl.toNat + 8 ≤ 0x2182 ∧ c.cpl.toNat + 8 ≤ c.desc.toNat + 56) ∧
      s.strandOf c.task = some 0 ∧ { s with clock := 99_999 }.clock < c.since + 100_000 ∧ c.since + 100_000 ≤ s.clock ∧
      (∀ i, i < 3 → homeDie (0x2182 + i) ≠ dieOf (tileOf c.strand)) ∧
      bag.kind = .sfbag ∧ 0 < field bag.words[5] 0 32 ∧ field bag.words[6] 48 16 = 4096 ∧ bag.words[0].toNat % 128 = 0 ∧
      bag.words[1].toNat % 4 = 0 ∧ bag.words[3].toNat % 4 = 0 ∧ bag.words[4].toNat % 4 = 0 ∧
      leNat (memGetBytes s.mem bag.words[2].toNat 4) = 0) ∧
    ∀ p ∈ ([(c.desc + 56, 8), (c.cpl, 8), (bag.words[2], 4)] : List (Word × Nat)) ++
        (List.range 3).flatMap fun i => [(BitVec.ofNat 64 (0x2181 + i), 1), (BitVec.ofNat 64 (0x2182 + i), 1)],
      PlainFor s (tileOf c.strand) 1 p.1 p.2 :=
  ⟨by decide +kernel, plainFor_all (by decide +kernel)⟩

/-- A fabric load of strand 0 with one empty cell: port 0 reads, port 1 writes, and port 1's end is awaited. -/
def load0 : Load :=
  { id := 1, owner := 0, image := 0, cellMask := 1, sinkMask := 0, portMask := 3, dirMask := 2, modeMask := 0,
    attach := Vector.replicate 16 0, save := 0x3000, cells := [(0, Cell.fresh)], routes := [], spill := [], spillBase := 0,
    spillSize := 0, ends := Vector.replicate 16 .none, bufs := Vector.replicate 16 [], frozen := false, report := none,
    arb := [], sealed := false, quiet := 0 }

/-- The same load with its one write stream ended. -/
def load1 : Load := { load0 with ends := load0.ends.set 1 .eos }

/-- The state with an active load in tile 0. -/
def active (s : State) (l : Load) : State := s.mapTile 0 fun y => { y with active := some l }

/-- The state with a shadow load in tile 0. -/
def shadow (s : State) (l : Load) : State := s.mapTile 0 fun y => { y with shadow := some l }

/-- The state with port p of tile 0 replaced. -/
def withPort (s : State) (p : Nat) (x : Port) : State := s.mapTile 0 fun y => { y with ports := y.ports.setIfInBounds p x }

/-- The words of a stream descriptor of n elements of 2^code bytes from base on: out for a write stream, with a policy. -/
def streamWords (base n code out policy : Nat) : List Nat :=
  [base, n + 2 ^ 16 + 2 ^ 32 + 2 ^ 48, 0, code * 2 ^ 32, out * 2 ^ 61 + policy * 2 ^ 62, 0, 0, 0]

/-- The eight words of a list. -/
def vec8 (l : List Nat) : Vector Word 8 := Vector.ofFn fun i => BitVec.ofNat 64 (l.getD i.val 0)

/-- A binding of strand 0 attached to load0. -/
def port0 (st : PortState) (words : List Nat) (idx : Nat) : Port :=
  { Port.fresh with st := st, bind := 4, load := 1, desc := vec8 words, idx := idx, save := 0x3000 }

/-- StreamBinding: a read stream over two pages at port 0 and a write stream at port 1, of a shadow load, and a pattern that ends
where the dump region begins. -/
theorem test_meets_StreamBinding :
    let s (b n out : Nat) := wr (shadow (st [0, 0, 0x2040, 1]) load0) 0x2040 (streamWords b n 2 out 1)
    let r := s 0x4_0FF0 40 0
    let w := s 0x4_0000 40 1
    let last := s 0xBF_7FFF_FFF0 4 1
    (r.attachLoad = some load0 ∧ (r.readG 1).toNat < 16 ∧ streamOk (recordAt r (r.readG 2)) false = true ∧
      streamOk (recordAt r (r.readG 2)) true = true ∧ load0.portMask.getLsbD (r.readG 1).toNat = true ∧
      load0.dirMask.getLsbD (r.readG 1).toNat = (recordAt r (r.readG 2))[4].getLsbD 61 ∧
      (r.port r.myTile (r.readG 1).toNat).st = .unbound ∧
      spanRange (rowSpans (recordAt r (r.readG 2))) = some (0x4_0FF0, 0x4_1090) ∧
      (∀ d, d < 4 → (r.mdie d).ranges = []) ∧ r.dir = [] ∧ r.cmds = [] ∧
      (touchedGranules (rowSpans (recordAt r (r.readG 2)))).length = 2 ∧
      w.attachLoad = some load0 ∧ streamOk (recordAt w (w.readG 2)) false = true ∧
      load0.portMask.getLsbD (w.readG 3).toNat = true ∧
      load0.dirMask.getLsbD (w.readG 3).toNat = (recordAt w (w.readG 2))[4].getLsbD 61 ∧
      spanRange (rowSpans (recordAt last (last.readG 2))) = some (0xBF_7FFF_FFF0, 0xBF_8000_0000)) ∧
    PlainAt r (r.readG 2) 64 ∧ PlainAt w (w.readG 2) 64 :=
  ⟨by decide +kernel, plain_of (p := (_, 64)) (by decide +kernel), plain_of (p := (_, 64)) (by decide +kernel)⟩

/-- StreamReleaseAndEvents: a bound port of the strand's own; a mask with and without a port that is releasing; a fault marker
not yet reported; a releasing port whose stream has ended, that has written nothing, and one whose write waits for its trigger; a
bound port with a query on its way, behind one of another binding. -/
theorem test_meets_StreamReleaseAndEvents :
    let b := withPort (st [0, 15, 0x8000]) 15 (port0 .bound [] 0)
    let r := withPort (st [0, 15, 0x8000]) 15 { port0 .releasing [] 0 with ended := true }
    let m := withPort (active (st []) load0) 0 { port0 .bound [] 0 with marker := some (0x04, 0x77) }
    let q := { withPort (st []) 0 (port0 .bound (streamWords 0x2040 60 2 0 1) 40) with queries := [(9, 0), (4, 2)] }
    (((b.readG 1).toNat < 16 ∧ (b.port b.myTile (b.readG 1).toNat).st = .bound ∧
        (b.port b.myTile (b.readG 1).toNat).strand = b.cur) ∧
      ((b.readG 2).toNat < 2 ^ 16 ∧ ∀ p, p < 16 → (b.port b.myTile p).st ≠ .releasing) ∧
      ((r.readG 2).getLsbD 15 = true ∧ (r.port r.myTile 15).st = .releasing ∧ (r.port r.myTile 15).strand = r.cur ∧
        (r.port 0 15).ended = true ∧ (r.port 0 15).written = [] ∧ r.owes (.stream 4) = false ∧
        { r with triggers := [ownTrigger (.stream 4)] }.owes (.stream (r.port 0 15).bind) = true) ∧
      ((m.port 0 0).marker = some (0x04, 0x77) ∧ (m.port 0 0).st ≠ .unbound ∧ (m.port 0 0).reported = false ∧
        (m.tile 0).load? (m.port 0 0).load = some load0 ∧ load0.report = none ∧ (m.strand load0.owner).root = 0 ∧
        m.sharesSave 0 load0 = false ∧ load0.save.toNat % 64 = 0) ∧
      ((q.port 0 0).st ≠ .unbound ∧ q.queries = [(9, 0)] ++ ((q.port 0 0).bind, 2) :: [] ∧
        ∀ z ∈ [((9, 0) : Nat × Nat)], ∀ y ∈ q.bindingsAt 0 0, y.bind ≠ z.1)) ∧
    ∀ p ∈ [(load0.save, 8), (load0.save + 8, 8)], PlainFor m 0 0 p.1 p.2 :=
  ⟨by decide +kernel, plainFor_all (by decide +kernel)⟩

/-- A cell that waits for the access of an operation of lanes 0 and 7 at 0x2000, with the entry in which a store sets D. -/
def accessCell (op : BitVec 6) (mark : Option TlbEnt := none) : Cell :=
  let at_ : Option LaneAcc := some { key := 0x2000, va := 0x2000, ent := none, mark := mark }
  { Cell.fresh with acks := 1, ops := [
      { op := op, slot := 0, acc := ((Vector.replicate 8 none).set 0 at_).set 7 at_, data := Vector.replicate 8 5, chan := some 3,
        tag := 0, done := false, got := none, held := false, took := [], was := Vector.replicate 8 0, hit := Vector.replicate 8 0 }] }

/-- An image of 80 bytes with one cell and two ports, and no records. -/
def imageWords (attach : Nat) : List Nat := [0x0000_0001_0147_4643, 1, 0, 0, 0x1_0000, 0, 0, 80, attach, 0]

/-- The image that stands at 0x2000. -/
def imageAt (s : State) : Image := { bits := leNat (memGetBytes s.mem 0x2000 80), total := 80 }

/-- FabricLoads: another strand's load; a sound image, with no load of another tile, and one whose port table has a reserved bit; a strand in TSWAP whose
active load has drained, one whose load has not, and one that has drained with an access still to be performed. -/
theorem test_meets_FabricLoads :
    (let s := shadow (st [0, 0x2000]) { load0 with owner := 1 }
     (s.tile s.myTile).shadow = some { load0 with owner := 1 } ∧ ({ load0 with owner := 1 } : Load).owner ≠ s.cur) ∧
    (let s := wr (st [0, 0x2000]) 0x2000 (imageWords 0)
     let bad := wr (st [0, 0x2000]) 0x2000 (imageWords 0x40)
     ((s.tile s.myTile).active = none ∧ (s.tile s.myTile).shadow = none ∧ field (wordAt s (s.readG 1 + 56)) 0 32 = 80 ∧
       (s.readG 1).toNat + 80 < 2 ^ 64 ∧ (imageAt s).ok = true ∧ (imageAt bad).ok = false ∧ bad.me.ta = false) ∧
     (∀ i ∈ List.range 10, PlainAt s (s.readG 1 + BitVec.ofNat 64 (8 * i)) 8)) ∧
    (let s := shadow (active (st []) load1) { load0 with id := 2 }
     (s.strand 0).run = .running ∧ s.ownsActive 0 = some load1 ∧ load1.drained = true ∧ load1.performed = true ∧ load1.strays = [] ∧
     s.ownsShadow 0 = some { load0 with id := 2 } ∧ ({ load0 with id := 2 } : Load).spillable = [] ∧
     ((s.mapMe fun x => { x with run := .swapping }).strand 0).run = .swapping) ∧
    (let s := active (st []) load0
     (s.strand 0).run = .running ∧ s.ownsActive 0 = some load0 ∧ load0.drained = false ∧
     ({ load1 with cells := [(0, accessCell 0x28)] } : Load).drained = true ∧
     ({ load1 with cells := [(0, accessCell 0x28)] } : Load).performed = false) :=
  ⟨by decide +kernel, ⟨by decide +kernel, plain_list (by decide +kernel)⟩, by decide +kernel⟩

/-- A token of ones. -/
def token1 (tag : BitVec 3) : Token := { vals := Vector.replicate 8 1, tag := tag }

/-- StreamsMove: a read port at element 16 of 20, and past the last one; a write port with a data token and with each end
token. -/
theorem test_meets_StreamsMove :
    (let s := withPort (active (st []) load0) 0 (port0 .bound (streamWords 0x2040 20 2 0 1) 16)
     let x := s.port 0 0
     (x.st ≠ .unbound ∧ x.dirOut = false ∧ x.ended = false ∧ x.marker = none ∧ x.pack = [] ∧ x.root = 0 ∧
       (s.strand x.strand).lost = none ∧ s.fabricSaved x.strand = false ∧
       (s.tile 0).load? x.load = some load0 ∧ load0.frozen = false ∧ s.portRoom 0 0 = true ∧ elemCount x.desc - x.idx = 4 ∧
       elemCount (vec8 (streamWords 0x2040 20 2 0 1)) - 20 = 0) ∧
     ∀ p ∈ (List.range 4).map fun i => (elemAddr x.desc (x.idx + i), elemBytes x.desc), PlainFor s 0 x.bind p.1 p.2) ∧
    (let l (g : BitVec 3) := { load0 with bufs := load0.bufs.set 1 [token1 g] }
     let s (g : BitVec 3) := withPort (active (st []) (l g)) 1 (port0 .bound (streamWords 0x2040 20 2 1 1) 0)
     let x := (s 0).port 0 1
     (x.st ≠ .unbound ∧ x.dirOut = true ∧ x.ended = false ∧ x.marker = none ∧ x.root = 0 ∧
       ((s 0).strand x.strand).lost = none ∧ (s 0).fabricSaved x.strand = false ∧ (s 6).fabricSaved x.strand = false ∧
       ((s 0).tile 0).load? x.load = some (l 0) ∧ (l 0).bufs.getD 1 [] = token1 0 :: [] ∧ (0 : BitVec 3).toNat < 6 ∧
       x.idx < elemCount x.desc ∧ ((s 6).tile 0).load? x.load = some (l 6) ∧ (l 6).bufs.getD 1 [] = token1 6 :: [] ∧
       6 ≤ (6 : BitVec 3).toNat) ∧
     ∀ p ∈ (List.range 8).map fun i => (elemAddr x.desc (x.idx + i), elemBytes x.desc), PlainFor (s 0) 0 x.bind p.1 p.2) :=
  ⟨⟨by decide +kernel, plainFor_all (by decide +kernel)⟩, by decide +kernel, plainFor_all (by decide +kernel)⟩

/-- A cell whose slot 0, with no guard, adds data register 0 and itself into data register 2: V is bit 63, the operation
[45:40], the sources [39:36] and [35:32], the destination [27:24] (R253). -/
def addCell : Cell := { Cell.fresh with slots := Cell.fresh.slots.set 0 (BitVec.ofNat 96 (2 ^ 63 + 2 ^ 40 + 2 * 2 ^ 24)) }

/-- CellsRun: a cell that fires in all lanes; no active load, and a sealed one; a load's, a store's and an
addition's access, and one that is the first store of its page. -/
theorem test_meets_CellsRun :
    (let l := { load0 with cells := [(0, addCell)] }
     ((active (st []) l).tile 0).active = some l ∧ l.sealed = false ∧ l.frozen = false ∧ l.cells = [(0, addCell)] ∧ l.routes = [] ∧
     (addCell.pick.map fun y => (y.1, y.2.2)) = some (0, [0, 1, 2, 3, 4, 5, 6, 7]) ∧
     (addCell.pick.map fun y => decide (y.2.1.op ≤ 0x24)) = some true) ∧
    (((st []).tile 0).active = none ∧
      ((active (st []) { load0 with sealed := true }).tile 0).active = some { load0 with sealed := true }) ∧
    (∀ op ∈ ([0x27, 0x28, 0x29] : List Nat),
      let l := { load0 with cells := [(0, accessCell (BitVec.ofNat 6 op))] }
      let s := active (st []) l
      (s.tile 0).active = some l ∧ l.sealed = false ∧ (l.cell 0).ops = (accessCell (BitVec.ofNat 6 op)).ops ∧
      ((l.cell 0).ops.map fun o => (o.op.toNat, o.done, o.got.isSome, o.chan)) = [(op, false, false, some 3)] ∧
      ((l.cell 0).ops.all fun o => o.acc.toList.all fun a => (a.bind (·.mark)).isNone) = true) ∧
    (let s := active (st []) { load0 with cells := [(0, accessCell 0x28)] }
     s.owes (.cell 1 0) = false ∧ { s with triggers := [ownTrigger (.cell 1 0)] }.owes (.cell 1 0) = true ∧
     ([0x2000, (leafOf 7).at_].all fun a => (s.meets 0 a true).isNone && (s.meets 0 a false).isNone && !s.engineHolds 0 a &&
       s.heldHalves a == []) = true ∧
     (s.strand load0.owner).lost = none ∧ s.isPoisoned 0x2000 4 = false ∧
     s.isFrozen (placeOf 0 0x2000) = false) ∧
    (((accessCell 0x28 (some (leafOf 7))).ops.map fun o => (o.acc.getD 7 none).bind (·.mark)) = [some (leafOf 7)] ∧
     pteAt (active pagedState { load0 with cells := [(0, accessCell 0x28 (some (leafOf 7)))] }) (leafOf 7).at_ = (leafOf 7).pte) := by
  refine ⟨?_, ?_, ?_, ?_, ?_⟩ <;> decide +kernel

/-- A report of a freeze, not yet written. -/
def report0 : Report :=
  { cause := 0x18, frozen := true, cell := 63, slot := 15, lanes := 0xA5, port := 15, unit := 3, chan := 7, addr := 0x77, written := false }

/-- FreezesAndDeadlocks: a frozen load that has settled, with its save area in ordinary memory; a load that has stood still for
4,096 cycles. -/
theorem test_meets_FreezesAndDeadlocks :
    (let l := { load0 with frozen := true, report := some report0 }
     let s := active (st []) l
     ((s.tile 0).active = some l ∧ report0.written = false ∧ report0.slot < 16 ∧ report0.unit < 4 ∧ report0.chan < 8 ∧
       report0.cell < 64 ∧ report0.port < 16 ∧ l.performed = true ∧ s.linksDone 0 l = true ∧ (s.tile 0).records = [] ∧
       s.sharesSave 0 l = false ∧ (s.strand l.owner).root = 0 ∧ l.save.toNat % 4096 = 0) ∧
     ∀ p ∈ ((List.range 72).filter fun i => decide (i < 2 ∨ 8 ≤ i)).map fun i => (l.save + BitVec.ofNat 64 (8 * i), 8),
       PlainFor s 0 0 p.1 p.2) ∧
    (let l := { load0 with quiet := 4096 }
     let s := active (st []) l
     (s.tile 0).active = some l ∧ 4096 ≤ l.quiet ∧ l.drained = false ∧ l.frozen = false ∧ l.report = none ∧
     (∀ e ∈ l.cells, (∀ o ∈ e.2.ops, o.done = true) ∧ e.2.pick = none) ∧ s.netStill 0 l = true ∧
     s.streamGoesOn 0 l = false ∧ s.portMarked 0 l = false) :=
  ⟨⟨by decide +kernel, plainFor_all (by decide +kernel)⟩, by decide +kernel⟩

/-- The words of a task record: entry 0x8000, priority 1, arguments, and a hint if there is one. -/
def taskWords (hint : Option Nat) : List Nat :=
  [0x8000 + 2 ^ 62 + (if hint.isSome then 2 ^ 61 else 0), 0x1234, 0x3000, 0x55 + (hint.getD 0) * 2 ^ 56, 0, 0, 0, 0]

/-- A member of a gang of two. -/
def taskG : Task := { task0 with gang := some { id := 9, member := 1, count := 2, cask := 0 } }

/-- TaskCreation: a sound record and room in its die's queue, for a gang of 1 and of 16; gangs of 0 and 17; a misaligned and a
malformed record; a strand in no gang, and a member of one, whose other member is on a strand, and is not. -/
theorem test_meets_TaskCreation :
    let s := wr (st [0, 0x2040, 1, 16, 17, 0x2041, 0x2080]) 0x2040 (taskWords (some 159) ++ [0x8002, 0, 0, 0, 0, 0, 0, 0])
    let m := (st []).mapMe fun x => { x with task := some taskG }
    (s.cur < 2560 ∧ recordOk (recordAt s (s.readG 1)) = true ∧ (s.me.outst = [] ∧ s.owesTrigger s.cur = false) ∧
      s.cogor.bringup.getLsbD 3 = false ∧ (s.die 3).queue.length < 4096 ∧ s.waiting = [] ∧
      field (recordAt s (s.readG 1))[3] 56 8 / 40 = 3 ∧ (s.readG 2).toNat = 1 ∧
      (s.readG 3).toNat = 16 ∧ (s.readG 0).toNat = 0 ∧ 16 < (s.readG 4).toNat ∧ s.me.ta = false ∧ (s.readG 5).toNat % 64 ≠ 0 ∧
      recordOk (recordAt s (s.readG 6)) = false ∧ s.me.task = some task0 ∧ task0.gang = none ∧ m.me.task = some taskG ∧
      taskG.gang = some { id := 9, member := 1, count := 2, cask := 0 } ∧ m.frozen = [] ∧
      (∃ e ∈ (m.setStrand 1 { strand0 [] with task := some taskG }).strands, e.1 ≠ m.cur ∧ e.2.inGang 9 = true) ∧
      ∀ e ∈ m.strands, e.1 ≠ m.cur → e.2.inGang 9 = false) ∧
    ∀ p ∈ [(s.readG 1, 64), (s.readG 6, 64)], PlainAt s p.1 p.2 :=
  ⟨by decide +kernel, plain_all (by decide +kernel)⟩

/-- The words of a watch descriptor of three lines from 0x3000 on. -/
def watchWords (base flags : Nat) : List Nat := [base, 3 * 2 ^ 32 + flags, 0, 0x8000, 5, 0x2008, 7, 0x2010]

/-- A watch entry of those words, whose range stands at its own address. -/
def watch0 (armed bound : Bool) (flags : Nat) : WatchEnt :=
  { desc := vec8 (watchWords 0x3000 flags), armed := armed, bound := bound, latched := none, asid := 7, fired := 3,
    segs := [(0x3000, 0x3000, 384)], root := 9 }

/-- The state in which die 0's watch table holds an entry 3. -/
def watched (s : State) (e : WatchEnt) : State := s.mapDie 0 fun d => { d with watch := [(3, e)] }

/-- WatchEntries: entry 1,023, which nobody has bound, with a sound descriptor; entry 1,024; and an entry of another ASID. -/
theorem test_meets_WatchEntries :
    let s := watched (wr (st [0, 1023, 0x2040, 1024, 3]) 0x2040 (watchWords 0x3000 0)) (watch0 true true 0)
    let e (n : Nat) := (s.die (dieOfStrand s.cur)).watch.find WatchEnt.reset n
    (s.cur < 2560 ∧ ((s.readG 1).toNat < 1024 ∧ (e (s.readG 1).toNat).asid = 0xFFFF) ∧
      (e (s.readG 1).toNat).latched = none ∧ watchOk (recordAt s (s.readG 2)) = true ∧
      (recordAt s (s.readG 2))[0].toNat + field (recordAt s (s.readG 2))[1] 32 32 * 128 = 0x3180 ∧
      (∀ i ∈ List.range 384, s.samePart (dieOf s.myTile) (.hbm (0x3000 + i)) = true) ∧
      ¬ (s.readG 3).toNat < 1024 ∧ s.me.ta = false ∧
      ¬ (s.me.pl = true ∨ (e (s.readG 4).toNat).asid = 0xFFFF ∨ (e (s.readG 4).toNat).asid = s.me.asid)) ∧
    PlainAt s (s.readG 2) 64 :=
  ⟨by decide +kernel, plain_of (p := (_, 64)) (by decide +kernel)⟩

/-- TasksEnd: a task with a completion word and one counter, at END and in it, from its start and at each decrement, with a
drained load; one resumed at a decrement; one with a store outstanding, one with a write that waits for its trigger, and one whose load has an
access still to be performed. -/
theorem test_meets_TasksEnd :
    let tk : Task := { task0 with words := #v[0, 0, 0x3000, 0, 0x3008, 0, 0, 0] }
    let s := active ((wr (st [0, 5]) 0x3000 [0, 2]).mapMe fun x => { x with task := some tk }) load1
    let busy : Load := { load1 with cells := [(0, accessCell 0x28)] }
    (s.me.resume = false ∧ (s.strand 0).task = some tk ∧ tk.gang = none ∧
      (∀ p, p < 16 → (s.port (tileOf 0) p).st = .unbound) ∧ (s.strand 0).outst = [] ∧ s.owesTrigger 0 = false ∧
      { s with triggers := [ownTrigger (.strand 0)] }.owesTrigger 0 = true ∧ s.ownsActive 0 = some load1 ∧
      load1.drained = true ∧ load1.performed = true ∧
      (∀ n ∈ List.range 6, ((s.mapMe fun x => { x with run := .ending 5 n }).strand 0).run = .ending 5 n) ∧
      (let r := s.mapMe fun x => { x with resume := true, trow := 4 }
       r.me.resume = true ∧ r.me.trow ≠ 0 ∧ 1 + min r.me.trow.toNat 4 = 5) ∧
      ((s.mapMe fun x => { x with outst := someOutst }).strand 0).outst ≠ [] ∧
      (active s busy).ownsActive 0 = some busy ∧ (busy.drained && busy.performed) = false) ∧
    ∀ p ∈ ([(0x3000, 8), (0x3008, 8)] : List (Word × Nat)), PlainAt { s with cur := 0 } p.1 p.2 :=
  ⟨by decide +kernel, plain_all (by decide +kernel)⟩

/-- A queue record: a task, or a gang. -/
def qrec (slot members enq : Nat) (level : BitVec 2) : QRec :=
  { slot := slot, words := vec8 (taskWords none), level := level, origin := 0, members := members, rcask := none, asid := 9,
    root := 3, g2 := 5, enq := enq, stamp := enq, by_ := 0 }

/-- The state in which die 0's queue holds the records, at a time in ns. -/
def queued (s : State) (l : List QRec) (now : Nat) : State := { s.mapDie 0 fun d => { d with queue := l } with clock := now }

/-- Dispatchers: a task and a gang of 16 to place; of two records that have waited 1 ms the one that has been due longer, behind the
other and in the last slot; a gang that has waited 100 µs; and a trigger's record that waits behind a spawned one and behind one of
another die. -/
theorem test_meets_Dispatchers :
    (let r := qrec 0 0 0 1
     let s := queued (st []) [r] 0
     s.cogor.stage = 6 ∧ (s.die 0).queue = [r] ∧ (s.die 0).resumeq = [] ∧ r.members = 0 ∧ s.taskStrand 0 r.words = some 16) ∧
    (let r := qrec 0 16 0 1
     let s := queued (st []) [r] 100_000
     (s.die 0).queue = [r] ∧ r.members ≠ 0 ∧ s.gangPlace 0 r = some ((List.range 16).map fun m => 16 + 4 * (m % 4) + m / 4) ∧
     ((List.range 16).map fun m => 16 + 4 * (m % 4) + m / 4).Nodup ∧ r.rcask = none ∧
     r.enq + 100_000 ≤ s.clock ∧ s.reservable 0 r = some 1) ∧
    (let r := qrec 4095 0 5 3
     let later := qrec 7 0 6 2
     let s := queued (st []) [later, r] 1_000_006
     (s.die 0).queue = [later] ++ r :: [] ∧ r.slot < 4096 ∧ r.level ≠ 0 ∧ r.stamp + 1_000_000 ≤ s.clock ∧
     later.level ≠ 0 ∧ later.stamp + 1_000_000 ≤ s.clock ∧ r.stamp < later.stamp ∧ later.slot ≠ r.slot) ∧
    (let w (d : Nat) (o : BitVec 2) : Waiting := { die := d, rcd := { qrec 0 0 0 1 with origin := o }, entry := some (3, 1023), writer := none }
     let s := { queued (st []) [] 0 with waiting := [w 1 2, w 0 0, w 0 2] }
     s.waiting = [w 1 2, w 0 0] ++ w 0 2 :: [] ∧ (w 0 2).die = 0 ∧ (s.die 0).queue.length < 4096 ∧
     ∀ x ∈ [w 1 2, w 0 0], x.die = 0 → (w 0 2).rcd.origin = 2 ∧ x.rcd.origin ≠ 2) := by
  decide +kernel

/-- TriggersArrive: a trigger that is due, behind one of another slice, at an entry that is armed and bound, with room in the
queue and with 4,096 records in it; not armed; and armed but unbound with and without LATCH. -/
theorem test_meets_TriggersArrive :
    let tr : Trigger := { die := 0, entry := 3, spans := [(0x3008, 8)], writer := some (.strand 4), slice := 0, due := 30 }
    let other : Trigger := { tr with slice := 1, due := 80 }
    let s (e : WatchEnt) := { watched (st []) e with triggers := [other, tr], clock := 30 }
    let e (u : State) := (u.die tr.die).watch.find WatchEnt.reset tr.entry
    let full := (s (watch0 true true 0)).mapDie 0 fun d => { d with queue := (List.range 4096).map fun n => qrec n 0 0 1 }
    (s (watch0 true true 0)).triggers = [other] ++ tr :: [] ∧ tr.die < 4 ∧ tr.due ≤ (s (watch0 true true 0)).clock ∧
    other.slice ≠ tr.slice ∧ tr.due ≤ other.due ∧
    lowestIn (e (s (watch0 true true 0))).segs tr.spans = some 0x3008 ∧ (e (s (watch0 true true 0))).armed = true ∧
    (e (s (watch0 true true 0))).bound = true ∧ ((s (watch0 true true 0)).die 0).queue.length < 4096 ∧
    (s (watch0 true true 0)).waiting = [] ∧ (e full).bound = true ∧ 4096 ≤ (full.die 0).queue.length ∧
    (e (s (watch0 false true 0))).armed = false ∧
    ((e (s (watch0 true false 0x100))).bound = false ∧ (e (s (watch0 true false 0x100))).desc[1].getLsbD 8 = true ∧
      (e (s (watch0 true false 0x100))).latched = none) ∧
    (e (s (watch0 true false 0))).desc[1].getLsbD 8 = false := by decide +kernel

/-- Nothing pending but what a function adds. -/
def pending (f : Pending → Pending) : State := (st []).mapMe fun x => { x with pend := f x.pend }

/-- PreemptionAndLaunch: a request that has waited 2 ms, and just less; each class of cause as the first of those pending; a
request to a strand that holds nothing and, unforced, to one that holds a lane group; an access midway that waits at a reservation,
one that waits for something else, and one with a train unacknowledged; ENGWAIT with an engine trap; an instruction that is to resume;
the supervisor level; waits in which causes are delivered; a boot launch of a sound record in stage 5, with the reading free and
under a reservation, and other times. -/
theorem test_meets_PreemptionAndLaunch :
    (let s (clock : Nat) := { pending (fun p => { p with preempt := some (5, false) }) with clock := clock }
     ((s 0).strand 0).pend.preempt = some (5, false) ∧ ((s 0).strand 0).task ≠ none ∧ 5 + 2_000_000 ≤ (s 2_000_005).clock ∧
     (s 2_000_004).clock < 5 + 2_000_000) ∧
    (let x (f : Pending → Pending) := (pending f).strand 0
     let all (p : Pending) : Pending :=
       { p with deferred := [(0x18, 0x2000)], engine := [(0x0D, 0, 0x40)], fabric := [(0x0E, 8)], gangAbort := [3], step := true,
                preempt := some (5, false) }
     ((x all).run = .running ∧ (x all).pl = false ∧ (x all).ta = false ∧ (x all).part = none ∧ (x all).engwait = false ∧
       (x all).pend.deferred = (0x18, 0x2000) :: []) ∧
     ((x fun p => { all p with deferred := [] }).pend.engine = (0x0D, 0, 0x40) :: []) ∧
     ((x fun p => { all p with deferred := [], engine := [] }).pend.fabric = (0x0E, 8) :: []) ∧
     ((x fun p => { all p with deferred := [], engine := [], fabric := [] }).pend.gangAbort = 3 :: []) ∧
     ((x fun p => { p with step := true, preempt := some (5, false) }).pend.step = true) ∧
     ((x fun p => { p with preempt := some (5, false) }).pend.step = false ∧
       (x fun p => { p with preempt := some (5, false) }).pend.preempt = some (5, false))) ∧
    ((st []).groupsOf 0 = [] ∧ (st []).accen 0 = 0 ∧ (st []).ownsActive 0 = none ∧ (st []).ownsShadow 0 = none ∧
      (vec (st []) 1 .w8 1).groupsOf 0 ≠ []) ∧
    (let pt (shut : Bool) : Part := { tlg := Vector.replicate 8 3, row := 63, m7 := 0, busy := 5, shut := shut, spans := [] }
     let x (b : Bool) (l : List Outst) := ((st []).mapMe fun x =>
       { x with part := some (pt b), outst := l, pend := { x.pend with preempt := some (5, true) } }).strand 0
     (x true []).part = some (pt true) ∧ (pt true).shut = true ∧ (x true []).pend.preempt = some (5, true) ∧
     (∀ o ∈ (x true []).outst, o.kind.isTrain = false) ∧ (x false []).part = some (pt false) ∧ ¬(pt false).shut = true ∧
     ¬∀ o ∈ (x true someOutst).outst, o.kind.isTrain = false) ∧
    (let x := ((st []).mapMe fun x => { x with resume := true, trow := 4 }).strand 0
     x.resume = true ∧ x.trow = 4 ∧ (st []).me.resume = false) ∧
    (let x := ((st []).mapMe fun x => { x with engwait := true, pend := { x.pend with engine := [(0x0D, 0, 0x40)] } }).strand 0
     x.part = none ∧ x.engwait = true ∧ x.pend.engine ≠ []) ∧
    ((((st []).mapMe fun x => { x with pl := true }).strand 0).pl ≠ false ∧
      (((st []).mapMe fun x => { x with run := .ending 5 0 }).strand 0).run = .ending 5 0 ∧
      (((st []).mapMe fun x => { x with run := .ending 5 1 }).strand 0).run ≠ .ending 5 0 ∧
      (((st []).mapMe fun x => { x with run := .swapping }).strand 0).run = .swapping) ∧
    (let s (n : BitVec 8) (up : BitVec 4) := wr { st [] with cogor := { Cogor.reset with stage := n, bringup := up } } 0xBF_7FFF_FFC0 (taskWords none)
     let at_ : Word := 0xBF_7FFF_FFC0
     (s 5 1).cogor.stage = 5 ∧ (s 5 1).cogor.bringup.getLsbD 0 = true ∧ at_.toNat % 64 = 0 ∧ at_.toNat < 0xC0_0000_0000 ∧
     recordOk (Vector.ofFn fun i : Fin 8 => BitVec.ofNat 64 (leNat (memGetBytes (s 5 1).mem (at_.toNat + 8 * i.val) 8))) = true ∧
     ((s 5 1).die 0).queue.length < 4096 ∧ (s 5 1).waiting = [] ∧
     ((s 5 1).meets 0 at_.toNat false = none ∧ (s 5 1).engineHolds 0 at_.toNat = false ∧ (s 5 1).heldHalves at_.toNat = []) ∧
     ((s 5 1).mapMDie (trackDie at_.toNat) fun m => { m with ranges := [(0,
       { bind := 4, write := true, policy := 2, rscope := 0, strand := 0, port := 0, splits := 0, vlo := at_.toNat / 128 * 128,
         plo := at_.toNat / 128 * 128, nlines := 1 })] }).meets 0 at_.toNat false ≠ none ∧ (s 4 1).cogor.stage ≠ 5 ∧
     (s 5 1).cogor.bringup.getLsbD 1 = false) := by
  refine ⟨?_, ?_, ?_, ?_, ?_, ?_, ?_, ?_⟩ <;> decide +kernel

/-- A strand of task0 that suspends into the page at 0x20000. -/
def suspending : State := (st []).mapMe fun x => { x with run := .suspending 0x2_0000 5 false, pl := true }

/-- TasksSuspend: a supervisor that stores the last page of HBM to SUSPEND, one that is out of it, and a full resume queue; a strand
that suspends with nothing outstanding; and an owner that suspends with a drained load, and with one that is not drained within the
2 ms and after them. -/
theorem test_meets_TasksSuspend :
    let c : SavedCtx := { record := 0x2_0000, task := 7, gang := none, pend := Pending.none, since := Pending.none, ports := [],
                          active := none, shadow := none, partly := 0 }
    (let s := (st []).mapMe fun x => { x with pl := true }
     let full := s.mapDie 0 fun d => { d with resumeq := List.replicate 1024 { ctxs := [c], level := 0, suspt := 0, stamp := 0 } }
     s.me.run = .running ∧ s.me.pl = true ∧ s.me.ta = false ∧ (0xBF_FFFF_F000 : Word).toNat % 0x1000 = 0 ∧
     (0xBF_FFFF_F000 : Word).toNat < 0xC0_0000_0000 ∧ (s.die (dieOfStrand s.cur)).resumeq = [] ∧
     (∀ e ∈ s.strands, e.2.isSuspending = false) ∧
     0xC0_0000_0000 ≤ (0xC0_0000_0000 : Word).toNat ∧ (0x2_0001 : Word).toNat % 0x1000 ≠ 0 ∧ full.me.task = some task0 ∧
     1024 ≤ ((full.die (dieOfStrand full.cur)).resumeq.filter fun r => (r.ctxs.head?.bind (·.gang)).isNone).length) ∧
    (let s := suspending
     (s.strand 0).run = .suspending 0x2_0000 5 false ∧ (s.strand 0).outst = [] ∧ s.owesTrigger 0 = false ∧
     (s.strand 0).task = some task0 ∧ task0.gang = none ∧ s.ownsActive 0 = none ∧ s.ownsShadow 0 = none ∧ 0x2_0000 % 0x1000 = 0 ∧
     0x2_0000 + 0x9_0000 ≤ 0xC0_0000_0000 ∧ (s.dir = [] ∧ (∀ m ∈ s.mdies, m.ranges = []) ∧ ∀ e ∈ s.cmds, e.2.lines = []) ∧
     (s.die (dieOfStrand 0)).resumeq = []) ∧
    (∀ l ∈ [load0, load1], ((active suspending l).tile 0).active = some l ∧
      ((active suspending l).strand l.owner).run = .suspending 0x2_0000 5 false) ∧
    load1.drained = true ∧ load1.performed = true ∧ (load0.drained && load0.performed) = false ∧
    (active suspending load0).clock < 5 + 2_000_000 ∧ 5 + 2_000_000 ≤ { active suspending load0 with clock := 2_000_005 }.clock := by
  decide +kernel

/-- TasksResume: die 0's resume queue holds one task, whose record at 0x20000 asks for no lane group; nothing and a deferred error
kept for it, and no fabric load. -/
theorem test_meets_TasksResume :
    let c : SavedCtx := { record := 0x2_0000, task := 7, gang := none, pend := Pending.none, since := Pending.none, ports := [],
                          active := none, shadow := none, partly := 0 }
    let c' : SavedCtx := { c with pend := { Pending.none with deferred := [(0x18, 0x77)] } }
    let e (c : SavedCtx) : ResumeEnt := { ctxs := [c], level := 0, suspt := 0, stamp := 0 }
    let s (c : SavedCtx) := (wr (st []) 0x2_0028 [2 ^ 0x18, 0x77]).mapDie 0 fun d => { d with resumeq := [e c] }
    (s c).cogor.stage = 6 ∧ ((s c).die 0).resumeq = [e c] ∧ (e c).ctxs = [c] ∧ c.gang = none ∧ ((s c).die 0).queue = [] ∧
    (s c).resumeStrand 0 c = some 16 ∧ ((s c).dir = [] ∧ (∀ m ∈ (s c).mdies, m.ranges = []) ∧ ∀ e ∈ (s c).cmds, e.2.lines = []) ∧
    c.pend.deferred = [] ∧ c.pend.late = [] ∧ (c.active = none ∧ c.shadow = none) ∧ (s c').resumeStrand 0 c' = some 16 ∧ c'.pend.deferred = (0x18, 0x77) :: [] ∧
    (BitVec.ofNat 64 (leNat (memGetBytes (s c').mem (c'.record + 40) 8))).getLsbD (0x18 : BitVec 8).toNat = true := by decide +kernel

/-- The state in a stage of the boot. -/
def stageOf (n : BitVec 8) : State := { st [] with cogor := { Cogor.reset with stage := n } }

/-- BootStages: each stage, and a module with and without an alarm halt. -/
theorem test_meets_BootStages :
    (∀ n ∈ ([1, 2, 3, 4, 5] : List Nat), (stageOf (BitVec.ofNat 8 n)).cogor.stage.toNat = n) ∧ (1 : Word).getLsbD 0 = true ∧
    AlarmHalt { st [] with cogor := { Cogor.reset with stage := 7, err := 5 } } ∧ ¬ AlarmHalt (st []) :=
  ⟨by decide +kernel, by decide +kernel, ⟨rfl, rfl⟩, fun h => absurd h.1 (by decide +kernel)⟩

/-- CogorServices: a write of tile 639 to RETIRE, and that tile draining with its strands Free; the header's half with nobody and with
the host; the stages of the mailbox and its
function; the states of the SPDM connection, with the tree certified and not and its leaves used up; and an image in the staging
area, verified and not, with a dump being written and not. -/
theorem test_meets_CogorServices :
    (let s := st []
     let t := { st [] with cogor := { s.cogor with draining := some 639 } }
     (1 : Word).getLsbD 0 = true ∧ s.cogor.stage = 6 ∧ (639 : Word).toNat < 2 ^ 10 ∧ field (639 : Word) 0 10 < 640 ∧
     s.cogor.draining = none ∧ s.cogor.retmap.getLsbD 639 = false ∧ s.gangSuspendedAt (639 / 4) = false ∧
     s.heldHalves 0xBF_8000_0000 = [] ∧
     { s with dir := [(0x1_7F00_0000, { DirLine.idle with lo := .s, loBy := [.host] })] }.halfState (0xBF_8000_0000 / 64) ≠ .n ∧
     t.cogor.draining = some 639 ∧ (∀ i, i < 4 → (t.strand (4 * 639 + i)).run = .free) ∧ 5 ≤ s.cogor.stage.toNat ∧
     (∃ d, d < 4 ∧ field s.cogor.partcfg (2 * d) 2 = 0) ∧ ¬(s.cogor.stage = 7 ∧ s.cogor.err = 5)) ∧
    (let c (p : Spdm) (leaf : Nat) (cert : Bool) :=
       { (st []).cogor with spdm := p, running := [1], aliasLeaf := leaf, certified := cert }
     ((c .versioned 0 true).spdm = .versioned ∧ (c .capable 0 true).spdm = .capable ∧ (c .negotiated 0 true).spdm = .negotiated ∧
       (c .capable 0 true).spdm ≠ .negotiated) ∧
     ((c .negotiated 0 true).erased = false ∧ (c .negotiated 0 true).running ≠ [] ∧ (c .negotiated 0 true).err ≠ 5) ∧
     ((c .negotiated 32767 true).aliasLeaf < 32768 ∧ (c .negotiated 32767 true).certified = true ∧
       (c .negotiated 0 false).certified = false ∧ 32768 ≤ (c .negotiated 32768 true).aliasLeaf ∧
       (c .negotiated 32768 true).deviceLeaf < 2 ^ 20)) ∧
    (let c := { (st []).cogor with verified := true }
     3 ≤ c.stage.toNat ∧ c.verified = true ∧ c.dumping = none ∧ c.copied = 0 ∧ c.stage ≠ 7 ∧
     { c with dumping := some 4 }.dumping ≠ none) ∧
    verifyCode [] 0 ≠ 0 := by decide +kernel

/-- AlarmsGovernorAndErrors: a running module that keeps no dump, one that keeps one, and one that writes one; windows that have
ended and that have not, in a row and not; each branch of the governor; a line of each place; a Free strand and one that runs a
task. -/
theorem test_meets_AlarmsGovernorAndErrors :
    (let s := { st [] with clock := 10_000 }
     let kept := wr (st []) 0xBF_8000_0000 [2 ^ 63]
     let halted := { st [] with cogor := { Cogor.reset with stage := 7, fatal := true, dumping := some 3 } }
     s.cogor.stage ≠ 7 ∧ s.cogor.dumping = none ∧ s.dumpValid = false ∧ kept.dumpValid = true ∧ kept.cogor.dumping = none ∧
     halted.cogor.stage = 7 ∧ halted.cogor.fatal = true ∧ halted.cogor.dumping ≠ none ∧
     (let m := s.mdie 3
      m.plim = 725 ∧ m.tlim = 105 ∧ 100 * 688 < 95 * m.plim.toNat ∧ 99 + 5 < m.tlim.toNat ∧ m.plim.toNat < 726 ∧
      m.tlim.toNat < 106 ∧ m.window < s.clock / 10_000 ∧ s.clock / 10_000 = m.window + 1 ∧ (st []).clock / 10_000 ≤ m.window) ∧
     128 * 0x17F_FFFF < 0xC0_0000_0000 ∧ 0x100_0000_0000 ≤ 128 * 0x9_FFFF_FFFF ∧ 128 * 0x9_FFFF_FFFF < 0x500_0000_0000 ∧
     0x4_0000_0000_0000 ≤ 128 * 0x1FFF_FFFF_FFFF ∧ 128 * 0x1FFF_FFFF_FFFF < 0x10_0000_0000_0000 ∧
     0xF00_2000_0000 + 0x500_0000 * 3 ≤ 128 * 0x1E_0067_FFFF ∧ 128 * 0x1E_0067_FFFF < 0xF00_2000_0000 + 0x500_0000 * 4 ∧
     (s.strand 2559).run = .free) ∧
    let s := (st []).mapMe fun x => { x with task := some { task0 with words := #v[0, 0, 0x3000, 0, 0, 0, 0, 0] } }
    ((s.strand 0).run ≠ .free ∧ (s.strand 0).task = some { task0 with words := #v[0, 0, 0x3000, 0, 0, 0, 0, 0] } ∧
      s.ownsActive 0 = none ∧ s.ownsShadow 0 = none ∧ ∀ p, p < 16 → (s.port (tileOf 0) p).st = .unbound) ∧
    PlainAt { s with cur := 0 } 0x3000 8 :=
  ⟨by decide +kernel, by decide +kernel, plain_of (p := (_, 8)) (by decide +kernel)⟩

/-- A range reservation entry with policy trap over the four lines at 0x2000. -/
def rangeTrap : RangeEnt :=
  { bind := 4, write := true, policy := 2, rscope := 0, strand := 0, port := 0, splits := 0, vlo := 0x2000, plo := 0x2000, nlines := 4 }

/-- The line at 0x2000, with the host parts of its halves. -/
def hostLine (lo hi : Half) : DirLine := { DirLine.idle with lo := lo, hi := hi }

/-- CxlTraffic: bytes at the end of a half that nobody holds, that the requester holds, and that another agent holds, in stages 5 and 6, and the last below the dump region; a write
that a reservation refuses and one that waits; a write of the dump region, and one in stage 4; a host line of which the module has
modified a half, in a stage that answers and in one that does not; a back-invalidate on its way to an exclusive holder, and to
another; and configuration reads before and after stage 5. -/
theorem test_meets_CxlTraffic :
    (let s := st []
     s.cogor.stage = 6 ∧ (stageOf 5).cogor.stage = 5 ∧ (∀ pa ∈ ([0x203F, 0xBF_7FFF_FFFF] : List Nat), pa < 0xBF_8000_0000 ∧ pa % 64 + 1 ≤ 64 ∧
       s.engineHolds 0 pa = false ∧ s.meets 0 pa true = none ∧ s.meets 0 pa false = none ∧ s.halfState (pa / 64) = .n) ∧
     (∀ h ∈ ([.s, .e] : List Half),
       let t := { s with dir := [(0x40, { hostLine h .n with loBy := [.host] })] }
       t.holders 0x80 = [.host] ∧ t.halfState 0x80 = h ∧ t.holders 0x80 ≠ [.peer 1]) ∧
     0x2000 % 64 + (List.replicate 64 (1 : Byte)).length ≤ 64 ∧ (stageOf 4).cogor.stage ≠ 5 ∧ (stageOf 4).cogor.stage ≠ 6 ∧
     (stageOf 7).cogor.fatal = false) ∧
    (let s (p : BitVec 2) := (st []).mapMDie (trackDie 0x2000) fun m => { m with ranges := [(0, { rangeTrap with policy := p })] }
     (s 2).meets 0 0x2000 true = some rangeTrap ∧ rangeTrap.policy = 2 ∧
     (s 1).meets 0 0x2000 true = some { rangeTrap with policy := 1 }) ∧
    (let s := watched (st []) (watch0 true true 0)
     s.cogor.bringup.getLsbD 0 = false ∧ ((s.die 0).watch.find WatchEnt.reset 3).armed = true ∧
     ((s.die 0).watch.find WatchEnt.reset 3).desc[1].getLsbD 6 = false ∧
     lowestIn ((s.die 0).watch.find WatchEnt.reset 3).segs [(0x317F, 1)] ≠ none) ∧
    (let pa := 0x8_0000_0000_0000
     let s := { st [] with dir := [(pa / 128, { DirLine.idle with mod := .o, copies := [.l1d 0], dlo := true, lo := .e })] }
     pa < 0x10_0000_0000_0000 ∧ s.cogor.stage ≠ 7 ∧ s.meets 0 pa true = none ∧ s.engineHolds 0 pa = false ∧
     (s.dirLine (pa / 128)).dlo = true ∧ s.halfState (pa / 64) = .e ∧ (stageOf 7).cogor.stage = 7) ∧
    (let s (h : Half) := { st [] with snoops := [(0x80, true)], dir := [(0x40, hostLine h .n)] }
     (0x2000 / 64, true) ∈ (s .e).snoops ∧ (s .e).halfState (0x2000 / 64) = .e ∧ (s .s).halfState (0x2000 / 64) ≠ .e ∧
     (s .e).wanted = [] ∧ ¬((s .e).cogor.stage = 7 ∧ (s .e).cogor.err = 5)) ∧
    (stageOf 4).cogor.stage.toNat < 5 ∧ 5 ≤ (st []).cogor.stage.toNat ∧ (st []).cogor.domid = none ∧
    ({ st [] with cogor := { (st []).cogor with domid := some 5 } } : State).cogor.domid = some 5 := by decide +kernel

/-- StepRunsDecoded: a strand whose turn the plan names, or with an empty plan; one that has issued in its cycle, one of whose tile two
others have, and one that may issue; its fetch of a legal word, of an illegal one and
past 2^52; an event, also in a halted module; a strand with a cause to take; an engine's read; requests from outside; and the
functions of the die 0. -/
theorem test_meets_StepRunsDecoded :
    (let s := { wr (st []) 0x1000 [0x1800_0000] with plan := [.issue 0 3] }
     let u := { s with plan := [], cur := 0 }.advance 3
     (s.plan = .issue 0 3 :: [] ∧ u.cogor.stage = 6 ∧ u.me.run = .running ∧ u.asyncReady u.cur = false ∧
       (match u.fetch with | .ok w _ => decide (w = 0x1800_0000) | _ => false) = true ∧
       (decide (decode 0x1800_0000 = .ok (.ori 0 0 0))) = true ∧ u.issued = [] ∧
       (∀ l ∈ ([[(0, 3)], [(1, 3), (2, 3)]] : List (List (Nat × Nat))),
         let u := { u with issued := l }
         mayIssue u.issuedNow 0 = false ∧ (u.advance 1).issuedNow = [])) ∧ PlainAt u.issueSlot u.me.pc 4) ∧
    ((st []).plan = [] ∧ (st []).cogor.stage ≠ 7 ∧
      (match (st []).fetch with | .ok w _ => decide (decode w = .reject .major) | _ => false) = true ∧
      (match ((st []).mapMe fun x => { x with pc := 0x10_0000_0000_0000 }).fetch with | .trap _ _ => true | _ => false) = true) ∧
    (let s (m : Move) := { st [] with plan := [m] }
     encode .coldReset = none ∧ runsHalted .coldReset = true ∧ encode (.setvlRetry 0) = none ∧ runsHalted (.setvlRetry 0) = false ∧
     (s (.event .coldReset 3)).plan = .event .coldReset 3 :: [] ∧ (s (.engRead 1 0 0 2)).plan = .engRead 1 0 0 2 :: [] ∧
     (s (.outside (.feature .ide) 1)).plan = .outside (.feature .ide) 1 :: [] ∧
     (s (.outside (.feature (.unlisted 3)) 1)).plan = .outside (.feature (.unlisted 3)) 1 :: [] ∧
     (s (.outside (.barRead 0 (.mailbox 0) 4) 1)).plan = .outside (.barRead 0 (.mailbox 0) 4) 1 :: []) ∧
    (let s := (st []).mapMe fun x => { x with pend := { x.pend with deferred := [(0x18, 0x2000)] } }
     s.asyncReady s.cur = true) ∧
    ((List.range 4).filter fun d => field (st []).cogor.partcfg (2 * d) 2 == 0) = [0, 1, 2, 3] ∧ (stageOf 4).cogor.stage.toNat < 5 :=
  ⟨⟨by decide +kernel, plain_of (p := (_, 4)) (by decide +kernel)⟩, by decide +kernel⟩

/-- EncodingIsOneToOne: a well-formed instruction with a word, and the word. -/
theorem test_meets_EncodingIsOneToOne :
    (Instr.vlseg .w32 3 28 1 ⟨true, 7⟩).wf = true ∧
    encode (.vlseg .w32 3 28 1 ⟨true, 7⟩) = some 0b101110_11100_00001_00000_1_111_0011_010 ∧
    decode 0b101110_11100_00001_00000_1_111_0011_010 = .ok (.vlseg .w32 3 28 1 ⟨true, 7⟩) := by decide +kernel

/-- AlarmHaltStays: a halted module whose plan holds an issue steps, and its next state is another one of the kind; one whose plan holds
an activation that runs to its end. -/
theorem test_meets_AlarmHaltStays :
    let s := { st [] with cogor := { Cogor.reset with stage := 7, err := 5 }, plan := [.issue 0 1] }
    AlarmLatched s ∧ gives (step s) (fun t => t.cogor.stage == 7 && t.plan == []) = true ∧ s.plan.head? = some (.issue 0 1) ∧
    (let a := { s with cogor := { s.cogor with verified := true }, plan := [.event (.activateFirmware 2) 1] }
     AlarmLatched a ∧ a.cogor.verified = true ∧ a.cogor.copiesLeft ≤ 2 ∧ a.plan.head? = some (.event (.activateFirmware 2) 1)) :=
  ⟨⟨⟨rfl, rfl⟩, rfl, rfl⟩, by decide +kernel, by decide +kernel, ⟨⟨rfl, rfl⟩, rfl, rfl⟩, by decide +kernel⟩

/-- MemoryStaysCanonical: a state whose memory is canonical, and a step of it that stores. -/
theorem test_meets_MemoryStaysCanonical :
    let s := wr (st [0, 0x2000, 5]) 0x1000 [0x6C41_0000]
    Memory.wf s.mem = true ∧ gives (step s) (fun t => t.load64 0x2000 == 5 && Memory.wf t.mem) = true := by decide +kernel


/-- TrapEntry: a strand with TA = 0. -/
theorem test_meets_TrapEntry : ((st []).strand 0).ta = false := by decide +kernel

end Sys2Proof.Tests
end

/-! PROOFS. Cogor's services (O51): the mailbox registers, attestation over SPDM, PLDM and the sensors. -/

namespace Sys2Proof.Machine

/-! ## Little-endian bytes of memory -/

theorem leNat_lt (l : List Byte) : leNat l < 256 ^ l.length := by
  induction l with
  | nil => simp [leNat]
  | cons b l ih =>
    have := b.isLt
    simp only [leNat, List.length_cons, Nat.pow_succ]
    omega

/-- Byte i of the number that a byte string holds. -/
theorem leNat_byte (l : List Byte) (i : Nat) (h : i < l.length) : leNat l / 256 ^ i % 256 = l[i].toNat := by
  induction l generalizing i with
  | nil => simp at h
  | cons b l ih =>
    have hb := b.isLt
    cases i with
    | zero => simp only [leNat, Nat.pow_zero, Nat.div_one, List.getElem_cons_zero]; omega
    | succ i =>
      have hd : leNat (b :: l) / 256 = leNat l := by simp only [leNat]; omega
      rw [Nat.pow_succ', ← Nat.div_div_eq_div_mul, hd]
      exact ih i (by simpa using h)

@[simp] theorem memGetBytes_length (m : List Host.Cell) (a n : Nat) : (memGetBytes m a n).length = n := by
  induction n generalizing a with
  | zero => rfl
  | succ n ih => simp [memGetBytes, ih]

theorem memGetBytes_getElem (m : List Host.Cell) (a n i : Nat) (h : i < (memGetBytes m a n).length) :
    (memGetBytes m a n)[i] = memGet m (a + i) := by
  induction n generalizing a i with
  | zero => simp [memGetBytes] at h
  | succ n ih =>
    cases i with
    | zero => rfl
    | succ i =>
      simp only [memGetBytes, List.getElem_cons_succ]
      rw [ih (a + 1) i (by simpa [memGetBytes] using h), Nat.add_assoc, Nat.add_comm 1 i]

theorem State.load_lt (s : State) (a n : Nat) : s.load a n < 256 ^ n := by
  simpa [State.load] using leNat_lt (memGetBytes s.mem a n)

theorem State.load_byte (s : State) (a n i : Nat) (h : i < n) : s.load a n / 256 ^ i % 256 = (memGet s.mem (a + i)).toNat := by
  rw [State.load, leNat_byte _ i (by simpa using h), memGetBytes_getElem]

/-! ## VALID of the dump header (R409, R410) -/

/-- Clearing bit 63 of a doubleword takes it modulo 2^63. -/
theorem toNat_setField_top (w : Word) : (setField w 63 1 0).toNat = w.toNat % 2 ^ 63 := by
  have := w.isLt
  simp only [setField, Nat.shiftRight_eq_div_pow, Nat.shiftLeft_eq, BitVec.toNat_ofNat]
  omega

/-- The seven low bytes of a number do not depend on its bits from 63 up. -/
theorem byte_mod_pow63 (x i : Nat) (h : i < 7) : x % 2 ^ 63 / 256 ^ i % 256 = x / 256 ^ i % 256 := by
  have hsplit : 2 ^ 63 = 256 ^ i * 2 ^ (63 - 8 * i) := by
    rw [show 256 = 2 ^ 8 from rfl, ← Nat.pow_mul, ← Nat.pow_add, show 8 * i + (63 - 8 * i) = 63 by omega]
  have hdvd : 256 ∣ 2 ^ (63 - 8 * i) := Nat.pow_dvd_pow 2 (show 8 ≤ 63 - 8 * i by omega)
  rw [hsplit, Nat.mod_mul_right_div_self, Nat.mod_mod_of_dvd _ hdvd]

theorem State.toNat_dumpWord0 (s : State) : s.dumpWord0.toNat = s.load dumpBase 8 := by
  have := s.load_lt dumpBase 8
  simp only [State.dumpWord0, State.load64, BitVec.toNat_ofNat]
  omega

/-- The bytes of the header's word 0 after VALID is cleared. -/
theorem State.memGet_clearValid (s : State) (i : Nat) (h : i < 8) :
    (memGet (s.setDumpBit 63 0).mem (dumpBase + i)).toNat = s.load dumpBase 8 % 2 ^ 63 / 256 ^ i % 256 := by
  simp only [State.setDumpBit, State.dumpWrite, Nat.add_zero]
  rw [memGet_memSetBytes_inside _ _ _ i (by simpa using h), leBytes_getElem, toNat_setField_top, State.toNat_dumpWord0]
  rfl

theorem State.memGet_clearValid_top (s : State) :
    (memGet (s.setDumpBit 63 0).mem (dumpBase + 7)).toNat = (memGet s.mem (dumpBase + 7)).toNat % 128 := by
  rw [s.memGet_clearValid 7 (by omega), ← s.load_byte dumpBase 8 7 (by omega)]
  omega

theorem State.memGet_clearValid_other (s : State) (a : Nat) (h : a ≠ dumpBase + 7) :
    memGet (s.setDumpBit 63 0).mem a = memGet s.mem a := by
  by_cases hin : dumpBase ≤ a ∧ a < dumpBase + 7
  · obtain ⟨i, rfl⟩ := Nat.exists_eq_add_of_le hin.1
    have hi : i < 7 := by omega
    apply BitVec.eq_of_toNat_eq
    rw [s.memGet_clearValid i (by omega), ← s.load_byte dumpBase 8 i (by omega)]
    exact byte_mod_pow63 _ i hi
  · exact memGet_memSetBytes_outside _ _ _ _ (by simp only [leBytes_length]; omega)

/-! ## DUMPCLR (R391, R404, R408, R409) -/

theorem State.alarmed_iff (s : State) : s.alarmed = true ↔ AlarmHalt s := by simp [State.alarmed, AlarmHalt]

/-- A write of a line of which nobody outside holds a half needs no back-invalidate. -/
theorem State.snoopsFor_of_not_held (s : State) (key : Nat) (h : s.heldHalves key = []) : s.snoopsFor key true = [] := by
  unfold State.snoopsFor
  by_cases hh : homedHere key = true
  · have hn : (s.dirLine (lineOf key)).lo = .n ∧ (s.dirLine (lineOf key)).hi = .n := by
      simpa [State.heldHalves, hh] using h
    simp [hh, hn, h]
  · simp [hh]

/-- A write of a half that is held outside asks for it. -/
theorem State.mem_snoopsFor (s : State) (key : Nat) (hh : homedHere key = true) (h : s.halfState (halfOf key) ≠ .n) :
    (halfOf key, true) ∈ s.snoopsFor key true := by
  have hl : halfOf key / 2 = lineOf key := by simp only [halfOf, lineOf]; omega
  have held : (halfOf key, true) ∈ s.heldHalves key := by
    rcases Nat.mod_two_eq_zero_or_one (halfOf key) with h0 | h1
    · have hs : (s.dirLine (lineOf key)).lo ≠ .n := by simpa [State.halfState, h0, hl] using h
      have hk : halfOf key = 2 * lineOf key := by omega
      simp [State.heldHalves, hh, hs, hk]
    · have hs : (s.dirLine (lineOf key)).hi ≠ .n := by simpa [State.halfState, h1, hl] using h
      have hk : halfOf key = 2 * lineOf key + 1 := by omega
      simp [State.heldHalves, hh, hs, hk]
  by_cases he : (s.dirLine (lineOf key)).lo = .e ∨ (s.dirLine (lineOf key)).hi = .e
  · simp [State.snoopsFor, hh, he, h]
  · simpa [State.snoopsFor, hh, he] using held

theorem State.mem_sendSnoops (s : State) (l : List (Nat × Bool)) (x : Nat × Bool) (h : x ∈ l) :
    x ∈ (s.sendSnoops l).snoops := by
  by_cases hx : x ∈ s.snoops <;> simp [State.sendSnoops, h, hx]

theorem State.dumpclrWrite_free (s : State) (bits : Word) (hb : bits.getLsbD 0 = true) (ha : ¬ AlarmHalt s)
    (hs : s.heldHalves dumpBase = []) : s.dumpclrWrite bits = s.setDumpBit 63 0 := by
  have ha' : s.alarmed = false := by simpa using mt s.alarmed_iff.1 ha
  have hn : s.dumpclrSnoops bits = [] := by simp [State.dumpclrSnoops, hb, ha', s.snoopsFor_of_not_held _ hs]
  simp [State.dumpclrWrite, hn, hb, ha']

theorem State.dumpclrWrite_held (s : State) (bits : Word) (hb : bits.getLsbD 0 = true) (ha : ¬ AlarmHalt s)
    (hs : s.halfState (halfOf dumpBase) ≠ .n) : s.dumpclrWrite bits = s.sendSnoops (s.snoopsFor dumpBase true) := by
  have ha' : s.alarmed = false := by simpa using mt s.alarmed_iff.1 ha
  have hm := s.mem_snoopsFor dumpBase rfl hs
  have hd : s.dumpclrSnoops bits = s.snoopsFor dumpBase true := by simp [State.dumpclrSnoops, hb, ha']
  unfold State.dumpclrWrite
  rw [hd]
  split
  · next hnil => simp [hnil] at hm
  · rfl

theorem State.dumpclrWrite_alarm (s : State) (bits : Word) (ha : AlarmHalt s) : s.dumpclrWrite bits = s := by
  simp [State.dumpclrWrite, State.dumpclrSnoops, s.alarmed_iff.2 ha]

/-! ## SVNCOMMIT, PARTCFG and RETIRE_DONE (R403, R417, R418) -/

theorem State.svncommitWrite_running (s : State) (bits : Word) (hb : bits.getLsbD 0 = true) (h6 : s.cogor.stage = 6) :
    s.svncommitWrite bits = { s with cogor := { s.cogor with svnf := max s.cogor.svnf (imageSvn s.cogor.running) } } :=
  if_pos ⟨hb, h6⟩

theorem State.partcfgWrite_eq (s : State) (bits : Word) :
    s.partcfgWrite bits = { s with cogor := { s.cogor with
      partNext := if partitionOk bits then bits &&& 0x0000_FFFF_FFFF_FFFF else s.cogor.partNext } } := by
  unfold State.partcfgWrite
  split <;> rfl

theorem State.occupied_eq_zero (s : State) (t : Nat) (h : ∀ i, i < 4 → (s.strand (4 * t + i)).run = .free) :
    s.occupied t = 0 := by
  simpa [State.occupied, List.filter_eq_nil_iff] using h

theorem execRetireDone_free (s : State) (t : Nat) (hd : s.cogor.draining = some t)
    (hf : ∀ i, i < 4 → (s.strand (4 * t + i)).run = .free) :
    execRetireDone s = .next { s with cogor := { s.cogor with
      rstate := 2, draining := none, retmap := s.cogor.retmap ||| (1 <<< t),
      flashRetmap := s.cogor.flashRetmap ||| (1 <<< t) } } := by
  simp [execRetireDone, hd, s.occupied_eq_zero t hf, State.mapCogor]

/-! ## RETIRE asks the tile's tasks to give way (R375, R376, R417) -/

/-- The strand y is x but for a pre-emption request, and a request that x has is not lost. -/
def Strand.OnlyAsked (x y : Strand) : Prop :=
  y = { x with pend := { x.pend with preempt := y.pend.preempt, further := y.pend.further } } ∧
  (x.pend.preempt.isSome = true → y.pend.preempt.isSome = true)

/-- Nothing differs but pre-emption requests, and none is lost. -/
def State.OnlyAsks (s t : State) : Prop :=
  t = { s with strands := t.strands } ∧ ∀ k, (s.strand k).OnlyAsked (t.strand k)

/-- The strand with a pre-emption request raised, as raisePreempt raises it. -/
def Strand.askedAt (x : Strand) (clock : Nat) : Strand :=
  { x with pend := { x.pend with preempt := some ((x.pend.preempt).getD (clock, false)),
                                 further := x.pend.further || (x.pl && x.reqAt.isSome) } }

/-- What RETIRE does to a strand of its tile: it asks it to give way unless it is Free. -/
def State.askBusy (s : State) (k : Nat) : State := if (s.strand k).run = .free then s else s.raisePreempt k

theorem Strand.OnlyAsked.refl (x : Strand) : x.OnlyAsked x := ⟨rfl, id⟩

theorem Strand.OnlyAsked.trans {x y z : Strand} (h : x.OnlyAsked y) (g : y.OnlyAsked z) : x.OnlyAsked z := by
  obtain ⟨hy, hp⟩ := h
  obtain ⟨hz, hq⟩ := g
  refine ⟨?_, hq ∘ hp⟩
  rw [hy] at hz
  exact hz

theorem Strand.onlyAsked_askedAt (x : Strand) (clock : Nat) : x.OnlyAsked (x.askedAt clock) := ⟨rfl, fun _ => rfl⟩

theorem Strand.OnlyAsked.run_eq {x y : Strand} (h : x.OnlyAsked y) : y.run = x.run := by rw [h.1]

theorem State.OnlyAsks.refl (s : State) : s.OnlyAsks s := ⟨rfl, fun _ => .refl _⟩

theorem State.OnlyAsks.trans {s t u : State} (h : s.OnlyAsks t) (g : t.OnlyAsks u) : s.OnlyAsks u := by
  obtain ⟨ht, hs⟩ := h
  obtain ⟨hu, ht'⟩ := g
  refine ⟨?_, fun k => (hs k).trans (ht' k)⟩
  rw [ht] at hu
  exact hu

theorem Table.find_map {α : Type} (dflt : α) (f : α → α) (t : Table α) (k : Nat) :
    Table.find dflt (t.map fun e => (e.1, f e.2)) k = Table.find dflt t k ∨
    Table.find dflt (t.map fun e => (e.1, f e.2)) k = f (Table.find dflt t k) := by
  induction t with
  | nil => exact .inl rfl
  | cons e t ih =>
    obtain ⟨j, x⟩ := e
    simp only [List.map_cons, Table.find]
    split
    · exact .inr rfl
    · exact ih

theorem State.strand_mapStrands (s : State) (f : Strand → Strand) (k : Nat) :
    ({ s with strands := s.strands.map fun e => (e.1, f e.2) } : State).strand k = s.strand k ∨
    ({ s with strands := s.strands.map fun e => (e.1, f e.2) } : State).strand k = f (s.strand k) :=
  Table.find_map _ f s.strands k

/-- Some of the listed strands asked. -/
theorem State.onlyAsks_mapStrands (s : State) (p : Strand → Bool) (clock : Nat) :
    s.OnlyAsks { s with strands := s.strands.map fun e => (e.1, if p e.2 then e.2.askedAt clock else e.2) } := by
  refine ⟨rfl, fun k => ?_⟩
  rcases s.strand_mapStrands (fun x => if p x then x.askedAt clock else x) k with h | h <;> rw [h]
  · exact .refl _
  · split
    · exact (s.strand k).onlyAsked_askedAt clock
    · exact .refl _

theorem State.onlyAsks_mapStrand (s : State) (k clock : Nat) : s.OnlyAsks (s.mapStrand k fun x => x.askedAt clock) := by
  refine ⟨rfl, fun j => ?_⟩
  by_cases hj : j = k
  · subst hj
    simpa [State.mapStrand] using (s.strand j).onlyAsked_askedAt clock
  · rw [State.mapStrand, s.strand_setStrand_other _ hj]
    exact .refl _

/-- A request raised for a strand reaches it, and nothing differs but requests. -/
theorem State.raisePreempt_asks (s : State) (k : Nat) :
    s.OnlyAsks (s.raisePreempt k) ∧ ((s.raisePreempt k).strand k).pend.preempt.isSome = true := by
  have hone := s.onlyAsks_mapStrand k s.clock
  have hk : ((s.mapStrand k fun x => x.askedAt s.clock).strand k).pend.preempt.isSome = true := by
    simp [State.mapStrand, Strand.askedAt]
  cases hg : (s.strand k).task.bind fun t => t.gang with
  | none =>
    have e : s.raisePreempt k = s.mapStrand k fun x => x.askedAt s.clock := by simp only [State.raisePreempt, hg]; rfl
    exact e ▸ ⟨hone, hk⟩
  | some g =>
    have hmap := (s.mapStrand k fun x => x.askedAt s.clock).onlyAsks_mapStrands (fun x => x.inGang g.id) s.clock
    have e : s.raisePreempt k = { s.mapStrand k (fun x => x.askedAt s.clock) with
        strands := (s.mapStrand k fun x => x.askedAt s.clock).strands.map fun e =>
          (e.1, if e.2.inGang g.id then e.2.askedAt s.clock else e.2) } := by simp only [State.raisePreempt, hg]; rfl
    exact e ▸ ⟨hone.trans hmap, (hmap.2 k).2 hk⟩

theorem State.askBusy_asks (s : State) (k : Nat) : s.OnlyAsks (s.askBusy k) ∧
    ((s.strand k).run ≠ .free → ((s.askBusy k).strand k).pend.preempt.isSome = true) := by
  unfold State.askBusy
  split
  · next hf => exact ⟨.refl s, fun h => absurd hf h⟩
  · exact ⟨(s.raisePreempt_asks k).1, fun _ => (s.raisePreempt_asks k).2⟩

/-- Every busy strand of a list is asked, and nothing differs but requests. -/
theorem State.foldl_askBusy_asks (l : List Nat) : ∀ s : State, s.OnlyAsks (l.foldl State.askBusy s) ∧
    ∀ k ∈ l, (s.strand k).run ≠ .free → ((l.foldl State.askBusy s).strand k).pend.preempt.isSome = true := by
  induction l with
  | nil => exact fun s => ⟨.refl s, by simp⟩
  | cons j l ih =>
    intro s
    obtain ⟨hj, hask⟩ := s.askBusy_asks j
    obtain ⟨hrest, hall⟩ := ih (s.askBusy j)
    refine ⟨hj.trans hrest, fun k hk hb => ?_⟩
    rcases List.mem_cons.1 hk with rfl | hk
    · exact (hrest.2 k).2 (hask hb)
    · exact hall k hk (by rw [(hj.2 k).run_eq]; exact hb)

/-- RETIRE does not refuse a tile in service to whose cask no suspended gang comes back, while no tile drains. -/
theorem State.retire_not_refused (s : State) (t : Nat) (ht : t < 640) (hd : s.cogor.draining = none)
    (hr : s.cogor.retmap.getLsbD t = false) (hg : s.gangSuspendedAt (caskOf t) = false) :
    (s.cogor.draining.isSome || s.tileOut t || decide (640 ≤ t) || s.gangSuspendedAt (caskOf t)) = false := by
  have hr' : s.tileOut t = false := hr
  simp [hd, hr', ht, hg]

/-- A tile in service starts to drain, and each of its strands that is busy is asked to give way. -/
theorem State.retireWrite_drains (s : State) (bits : Word) (hb : bits.toNat < 2 ^ 10) (ht : field bits 0 10 < 640)
    (hd : s.cogor.draining = none) (hr : s.cogor.retmap.getLsbD (field bits 0 10) = false)
    (hg : s.gangSuspendedAt (field bits 0 10 / 4) = false) :
    s.retireWrite bits = ((List.range 4).map fun i => 4 * field bits 0 10 + i).foldl State.askBusy
      { s with cogor := { s.cogor with
        rtile := BitVec.ofNat 10 (field bits 0 10), rstate := 1, draining := some (field bits 0 10) } } := by
  have h0 : field bits 10 54 = 0 := by
    simp only [field, Nat.shiftRight_eq_div_pow, Nat.div_eq_of_lt hb, Nat.zero_mod]
  have hin := (s.mapCogor fun c => { c with rtile := BitVec.ofNat 10 (field bits 0 10) }).retire_not_refused _ ht hd hr hg
  unfold State.retireWrite
  rw [if_neg fun h => h h0, List.foldl_map]
  exact if_neg (by rw [hin]; decide)

/-- A write to RETIRE, by what it changes: the registers of the mailbox, and requests to the busy strands of the tile. -/
theorem State.retireWrite_spec (s : State) (bits : Word) (hb : bits.toNat < 2 ^ 10) (ht : field bits 0 10 < 640)
    (hd : s.cogor.draining = none) (hr : s.cogor.retmap.getLsbD (field bits 0 10) = false)
    (hg : s.gangSuspendedAt (field bits 0 10 / 4) = false) :
    State.OnlyAsks { s with cogor := { s.cogor with
      rtile := BitVec.ofNat 10 (field bits 0 10), rstate := 1, draining := some (field bits 0 10) } } (s.retireWrite bits) ∧
    ∀ i, i < 4 → (s.strand (4 * field bits 0 10 + i)).run ≠ .free →
      ((s.retireWrite bits).strand (4 * field bits 0 10 + i)).pend.preempt.isSome = true := by
  rw [s.retireWrite_drains bits hb ht hd hr hg]
  obtain ⟨hasks, hbusy⟩ := State.foldl_askBusy_asks ((List.range 4).map fun i => 4 * field bits 0 10 + i)
    { s with cogor := { s.cogor with
      rtile := BitVec.ofNat 10 (field bits 0 10), rstate := 1, draining := some (field bits 0 10) } }
  exact ⟨hasks, fun i hi => hbusy _ (List.mem_map_of_mem (List.mem_range.2 hi))⟩

/-! ## BAR0 (R346, R347) -/

/-- A partition's function shows PARTCFG from stage 5 on. -/
theorem State.barOffset_partcfg (s : State) (fn : Nat) (h5 : 5 ≤ s.cogor.stage.toNat)
    (hd : ∃ d, d < 4 ∧ field s.cogor.partcfg (2 * d) 2 = fn) :
    s.barOffset fn (.mailbox 0x110) = some 0xF_0000_0110 := by
  obtain ⟨d, hd4, hfn⟩ := hd
  have hmem : d ∈ s.partDies fn := by simp [State.partDies, State.partOfDie, hd4, hfn]
  have hne : (s.partDies fn).isEmpty = false := by simpa using List.ne_nil_of_mem hmem
  have hs : ¬ s.cogor.stage.toNat < 5 := by omega
  simp [State.barOffset, hne, hs]

theorem State.barWrite_partcfg (s : State) (fn n : Nat) (bits : Word)
    (ho : s.barOffset fn (.mailbox 0x110) = some 0xF_0000_0110) :
    s.barWrite fn (.mailbox 0x110) n bits = if n = 8 then s.partcfgWrite bits else s := by
  by_cases hn : n = 8
  · simp [State.barWrite, ho, hn, State.controlWrite, State.cogorWrite]
  · simp [State.barWrite, ho, hn]

/-! ## SPDM requests in and out of their order (R400, R407) -/

theorem State.spdmAt_ready (s : State) (ready : Spdm → Bool) (f : State → State) (h5 : 5 ≤ s.cogor.stage.toNat)
    (hr : ready s.cogor.spdm = true) : s.spdmAt ready f = .next (f s) := by
  simp [State.spdmAt, State.doeOpen, h5, hr]

theorem State.spdmAt_early (s : State) (ready : Spdm → Bool) (f : State → State) (h5 : 5 ≤ s.cogor.stage.toNat)
    (hr : ready s.cogor.spdm = false) : s.spdmAt ready f = .next { s with answer := .spdmError } := by
  simp [State.spdmAt, State.doeOpen, h5, hr, State.reply]

theorem State.spdmAt_negotiated (s : State) (f : State → State) (h5 : 5 ≤ s.cogor.stage.toNat)
    (hn : s.cogor.spdm = .negotiated) : s.spdmAt (fun x => x == .negotiated) f = .next (f s) :=
  s.spdmAt_ready _ f h5 (by simp [hn])

/-- A reply that leaves the connection where it is. -/
theorem State.reply_eq (s : State) (a : Answer) :
    s.reply a = { s with cogor := { s.cogor with spdm := s.cogor.spdm }, answer := a } := rfl

/-! ## The identity keys (R406) -/

theorem Cogor.hasKeys_iff (c : Cogor) : c.hasKeys = true ↔ c.erased = false ∧ c.running ≠ [] ∧ c.err ≠ 5 := by
  simp [Cogor.hasKeys, and_assoc]

theorem State.withKeys_keyless (s : State) (f : State → State) (hk : s.cogor.hasKeys = false) :
    s.withKeys f = s.reply .spdmError := by
  simp [State.withKeys, hk]

theorem State.withKeys_certified (s : State) (f : State → State) (hk : s.cogor.hasKeys = true)
    (hc : s.cogor.certified = true) : s.withKeys f = f s := by
  simp [State.withKeys, hk, State.certify, hc]

/-- The state with its LMS tree certified by the next DeviceID leaf, after the flash write of that leaf's counter. -/
def State.newlyCertified (s : State) : State :=
  { s with tick := s.tick + 1, cogor := { s.cogor with certified := true, deviceLeaf := s.cogor.deviceLeaf + 1 } }

theorem State.withKeys_uncertified (s : State) (f : State → State) (hk : s.cogor.hasKeys = true)
    (hc : s.cogor.certified = false) (hl : s.cogor.deviceLeaf < 2 ^ 20) :
    s.withKeys f = if Config.flashFails s.tick then { s with tick := s.tick + 1, answer := .spdmError }
      else f s.newlyCertified := by
  have hcert : s.certify = if Config.flashFails s.tick then (false, { s with tick := s.tick + 1 })
      else (true, s.newlyCertified) := by
    unfold State.certify State.flashWrite
    rw [if_neg (by simp [hc]), if_neg (Nat.not_le.2 hl)]
    cases Config.flashFails s.tick <;> rfl
  by_cases hw : Config.flashFails s.tick = true <;> simp [State.withKeys, hk, hcert, hw, State.reply]

/-! ## Reports (R406, R407) -/

/-- t answers a request for a report of s: the blocks, signed with the nonce by the ECDSA key and by a leaf of an LMS
tree, with the chain of that tree, which a DeviceID leaf has certified (R406, R407). -/
def State.Reports (s : State) (nonce : Nat) (blocks : List (List Byte)) (tree leaf device : Nat) (t : State) : Prop :=
  let digest := Config.sha384 s.cogor.running
  let said := leBytes 32 nonce ++ blocks.flatten
  t.answer = .spdm blocks (Config.ecdsaSign Config.otpUds digest said) (Config.lmsSign Config.otpUds digest tree leaf said)
    (Config.certificates Config.otpUds digest tree (device - 1)) ∧
  t = { s with tick := t.tick, answer := t.answer,
               cogor := { s.cogor with aliasTree := tree, aliasLeaf := leaf + 1, deviceLeaf := device, certified := true } }

/-- The answer of s is an error after k flash writes, the last of which has failed. -/
def State.FailsAfter (s : State) (k : Nat) (t : State) : Prop := t.tick = s.tick + k ∧ t.answer = .spdmError

/-- A leaf of the certified tree in use signs, unless the flash write of its counter fails. -/
theorem State.report_certified (s : State) (blocks : List (List Byte)) (nonce : Nat) (hk : s.cogor.hasKeys = true)
    (hc : s.cogor.certified = true) (hl : s.cogor.aliasLeaf < 32768) :
    if Config.flashFails s.tick then s.FailsAfter 1 (s.report blocks nonce)
    else (s.report blocks nonce).tick = s.tick + 1 ∧
      s.Reports nonce blocks s.cogor.aliasTree s.cogor.aliasLeaf s.cogor.deviceLeaf (s.report blocks nonce) := by
  unfold State.report
  rw [if_pos hl, s.withKeys_certified _ hk hc]
  by_cases hw : Config.flashFails s.tick = true
  · simp [State.flashWrite, hw, State.FailsAfter, State.reply]
  · simp [State.flashWrite, hw, State.Reports, State.reply, State.mapCogor, Cogor.measurement, Cogor.chain, hc]

/-- With the leaves of the tree in use used up, the next tree is certified first, unless the flash write of the DeviceID leaf's counter
fails. -/
theorem State.report_newTree (s : State) (blocks : List (List Byte)) (nonce : Nat) (hk : s.cogor.hasKeys = true)
    (hl : 32768 ≤ s.cogor.aliasLeaf) (hd : s.cogor.deviceLeaf < 2 ^ 20) :
    s.report blocks nonce = if Config.flashFails s.tick
      then { s.mapCogor Cogor.newTree with tick := s.tick + 1, answer := .spdmError }
      else (s.mapCogor Cogor.newTree).newlyCertified.report blocks nonce := by
  unfold State.report
  rw [if_neg (Nat.not_lt.2 hl), (s.mapCogor Cogor.newTree).withKeys_uncertified _ hk rfl hd,
    if_pos (show (s.mapCogor Cogor.newTree).newlyCertified.cogor.aliasLeaf < 32768 from Nat.zero_lt_succ _),
    (s.mapCogor Cogor.newTree).newlyCertified.withKeys_certified _ hk rfl]
  rfl

/-- The request i of s is answered by a report over blocks, with a leaf of the tree in use or the first of the next one, unless the flash
write of a leaf counter fails (R406). -/
def State.SignsReport (s : State) (nonce : Nat) (i : Instr) (blocks : List (List Byte)) : Prop :=
  let c := s.cogor
  (c.aliasLeaf < 32768 → c.certified = true → Goes (exec i s) fun t =>
    if Config.flashFails s.tick then s.FailsAfter 1 t
    else t.tick = s.tick + 1 ∧ s.Reports nonce blocks c.aliasTree c.aliasLeaf c.deviceLeaf t) ∧
  (32768 ≤ c.aliasLeaf → c.deviceLeaf < 2 ^ 20 → Goes (exec i s) fun t =>
    if Config.flashFails s.tick then s.FailsAfter 1 t else if Config.flashFails (s.tick + 1) then s.FailsAfter 2 t
    else t.tick = s.tick + 2 ∧ s.Reports nonce blocks (c.aliasTree + 1) 0 (c.deviceLeaf + 1) t)

theorem State.signsReport_of_report (s : State) (nonce : Nat) (i : Instr) (blocks : List (List Byte))
    (hi : exec i s = .next (s.report blocks nonce)) (hk : s.cogor.hasKeys = true) : s.SignsReport nonce i blocks := by
  refine ⟨fun hl hc => ⟨_, hi, s.report_certified blocks nonce hk hc hl⟩, fun hl hd => ⟨_, hi, ?_⟩⟩
  rw [s.report_newTree blocks nonce hk hl hd]
  split
  · exact ⟨rfl, rfl⟩
  · exact (s.mapCogor Cogor.newTree).newlyCertified.report_certified blocks nonce hk rfl (Nat.zero_lt_succ _)

/-! ## Requests of SPDM (R407) -/

theorem execGetVersion_anew (s : State) (h5 : 5 ≤ s.cogor.stage.toNat) :
    execGetVersion s = .next { s with cogor := { s.cogor with spdm := .versioned }, answer := .spdm [[0x13]] [] [] [] } :=
  s.spdmAt_ready (fun _ => true) _ h5 rfl

theorem execGetCapabilities_versioned (s : State) (h5 : 5 ≤ s.cogor.stage.toNat) (hv : s.cogor.spdm = .versioned) :
    execGetCapabilities s = .next { s with cogor := { s.cogor with spdm := .capable }, answer := .done } :=
  s.spdmAt_ready (fun x => x == .versioned) _ h5 (by simp [hv])

theorem execNegotiateAlgorithms_capable (s : State) (h5 : 5 ≤ s.cogor.stage.toNat) (hc : s.cogor.spdm = .capable) :
    execNegotiateAlgorithms s = .next { s with
      cogor := { s.cogor with spdm := .negotiated }, answer := .algorithms [.ecdsaP384, .sha384] } :=
  s.spdmAt_ready (fun x => x == .capable) _ h5 (by simp [hc])

theorem execChallenge_negotiated (s : State) (nonce : Nat) (h5 : 5 ≤ s.cogor.stage.toNat) (hn : s.cogor.spdm = .negotiated) :
    execChallenge nonce s =
      .next (s.report [s.cogor.block 1, s.cogor.block 2, s.cogor.block 3, s.cogor.block 4] nonce) := by
  rw [execChallenge, s.spdmAt_negotiated _ h5 hn]
  rfl

theorem execGetMeasurements_all (s : State) (nonce : Nat) (signed : Bool) (h5 : 5 ≤ s.cogor.stage.toNat)
    (hn : s.cogor.spdm = .negotiated) :
    let all := [s.cogor.block 1, s.cogor.block 2, s.cogor.block 3, s.cogor.block 4]
    execGetMeasurements ⟨0xFF, signed⟩ nonce s =
      .next (if signed then s.report all nonce else s.reply (.spdm all [] [] [])) := by
  rw [execGetMeasurements, s.spdmAt_negotiated _ h5 hn]
  rfl

theorem execGetMeasurements_block (s : State) (nonce b : Nat) (signed : Bool) (h5 : 5 ≤ s.cogor.stage.toNat)
    (hn : s.cogor.spdm = .negotiated) (hb : 1 ≤ b ∧ b ≤ 4) :
    execGetMeasurements ⟨b, signed⟩ nonce s =
      .next (if signed then s.report [s.cogor.block b] nonce else s.reply (.spdm [s.cogor.block b] [] [] [])) := by
  rw [execGetMeasurements, s.spdmAt_negotiated _ h5 hn]
  exact congrArg _ (if_pos hb)

theorem execGetDigests_negotiated (s : State) (h5 : 5 ≤ s.cogor.stage.toNat) (hn : s.cogor.spdm = .negotiated) :
    execGetDigests s = .next (s.withKeys fun u =>
      u.reply (.spdm [leBytes 48 (Config.sha384 u.cogor.chain).toNat] [] [] [])) :=
  s.spdmAt_negotiated _ h5 hn

theorem execGetCertificate_negotiated (s : State) (h5 : 5 ≤ s.cogor.stage.toNat) (hn : s.cogor.spdm = .negotiated) :
    execGetCertificate s = .next (s.withKeys fun u => u.reply (.spdm [u.cogor.chain] [] [] [])) :=
  s.spdmAt_negotiated _ h5 hn

/-- The request i of s is answered by what g makes of the certificate chain, with the tree in use as it is certified, or certified now by
the next DeviceID leaf, unless the flash write of its counter fails (R406). -/
def State.GivesChain (s : State) (i : Instr) (g : List Byte → List Byte) : Prop :=
  let c := s.cogor
  let chain (device : Nat) : List Byte := Config.certificates Config.otpUds (Config.sha384 c.running) c.aliasTree (device - 1)
  (c.certified = true → Goes (exec i s) fun t =>
    t = { s with cogor := { c with spdm := .negotiated }, answer := .spdm [g (chain c.deviceLeaf)] [] [] [] }) ∧
  (c.certified = false → c.deviceLeaf < 2 ^ 20 → Goes (exec i s) fun t =>
    if Config.flashFails s.tick then s.FailsAfter 1 t
    else t = { s with tick := s.tick + 1, answer := .spdm [g (chain (c.deviceLeaf + 1))] [] [] [],
                      cogor := { c with certified := true, deviceLeaf := c.deviceLeaf + 1 } })

theorem State.givesChain_of_withKeys (s : State) (i : Instr) (g : List Byte → List Byte)
    (hi : exec i s = .next (s.withKeys fun u => u.reply (.spdm [g u.cogor.chain] [] [] []))) (hk : s.cogor.hasKeys = true)
    (hn : s.cogor.spdm = .negotiated) : s.GivesChain i g := by
  refine ⟨fun hc => ⟨_, hi, ?_⟩, fun hc hl => ⟨_, hi, ?_⟩⟩
  · rw [s.withKeys_certified _ hk hc, ← hn]
    rfl
  · rw [s.withKeys_uncertified _ hk hc hl]
    split
    · exact ⟨rfl, rfl⟩
    · rfl

/-- Without keys there is neither a digest nor a certificate (log 80). -/
theorem exec_chain_keyless (s : State) (h5 : 5 ≤ s.cogor.stage.toNat) (hn : s.cogor.spdm = .negotiated)
    (hk : s.cogor.hasKeys = false) :
    ∀ i ∈ [Instr.getDigests, .getCertificate], exec i s = .next { s with answer := .spdmError } := by
  simp only [List.forall_mem_cons, List.not_mem_nil, false_imp_iff, implies_true, and_true]
  exact ⟨(execGetDigests_negotiated s h5 hn).trans (congrArg _ (s.withKeys_keyless _ hk)),
    (execGetCertificate_negotiated s h5 hn).trans (congrArg _ (s.withKeys_keyless _ hk))⟩

/-- A request that must come after NEGOTIATE_ALGORITHMS is an error before it (log 37). -/
theorem exec_not_negotiated (s : State) (nonce b : Nat) (signed : Bool) (h5 : 5 ≤ s.cogor.stage.toNat)
    (hn : s.cogor.spdm ≠ .negotiated) :
    ∀ i ∈ [Instr.getDigests, .getCertificate, .challenge nonce, .getMeasurements ⟨b, signed⟩ nonce],
      exec i s = .next { s with answer := .spdmError } := by
  have early : ∀ f, s.spdmAt (fun x => x == .negotiated) f = .next { s with answer := .spdmError } := fun f =>
    s.spdmAt_early _ f h5 (by simpa using hn)
  have digests : execGetDigests s = .next { s with answer := .spdmError } := early _
  have certificate : execGetCertificate s = .next { s with answer := .spdmError } := early _
  have challenge : execChallenge nonce s = .next { s with answer := .spdmError } := early _
  have measurements : execGetMeasurements ⟨b, signed⟩ nonce s = .next { s with answer := .spdmError } := early _
  simp only [List.forall_mem_cons, List.not_mem_nil, false_imp_iff, implies_true, and_true]
  exact ⟨digests, certificate, challenge, measurements⟩

/-! ## PLDM and the sensors (R411, R412, R413, R419) -/

theorem State.pldmOpen_of_stage (s : State) (h3 : 3 ≤ s.cogor.stage.toNat) : s.pldmOpen = true := by
  simpa [State.pldmOpen] using h3

theorem execVerifyImage_open (s : State) (h3 : 3 ≤ s.cogor.stage.toNat) :
    execVerifyImage s = .next { s with
      answer := if verifyCode s.cogor.staging s.cogor.svnf = 0 then .done else .error,
      cogor := { s.cogor with verified := decide (verifyCode s.cogor.staging s.cogor.svnf = 0) } } := by
  simp [execVerifyImage, s.pldmOpen_of_stage h3, State.reply, State.mapCogor]

theorem State.activate_both (s : State) (hc : s.cogor.copied = 0) :
    s.activate 2 = { s with answer := .done, cogor := { s.cogor with
      slotBImg := s.cogor.slotA, slotA := s.cogor.staging, activating := none } } := by
  simp [State.activate, Cogor.copiesLeft, Cogor.activate, hc, State.reply, State.mapCogor]

theorem execActivateFirmware_verified (s : State) (copies : Nat) (h3 : 3 ≤ s.cogor.stage.toNat)
    (hv : s.cogor.verified = true) :
    execActivateFirmware copies s = .next (if s.cogor.dumping.isSome
      then { s with cogor := { s.cogor with activating := some copies } } else s.activate copies) := by
  by_cases hd : s.cogor.dumping.isSome = true <;>
    simp [execActivateFirmware, s.pldmOpen_of_stage h3, hv, hd, State.mapCogor]

/-- The reading of sensor n of a die; none for a number that no sensor has (R412, R413; log 39). -/
def MDie.sensor? (m : MDie) (n : Nat) : Option Word :=
  if n < 15 then some (m.counters.getD n 0)
  else if n = 15 then some (m.pwr.setWidth 64)
  else if n = 16 then some (m.temp.setWidth 64)
  else if n = 17 then some (m.freq.setWidth 64)
  else none

theorem execGetSensorReading_eq (s : State) (d n : Nat) (h3 : 3 ≤ s.cogor.stage.toNat) (h7 : s.cogor.stage ≠ 7) (hd : d < 4) :
    execGetSensorReading d n s = .next (s.reply (((s.mdie d).sensor? n).elim .error .value)) := by
  have hopen : ¬ (!s.pldmOpen ∨ s.cogor.stage = 7) := by rw [s.pldmOpen_of_stage h3]; simpa using h7
  unfold execGetSensorReading MDie.sensor?
  rw [if_neg hopen]
  simp only [if_neg (Nat.not_le.2 hd), apply_ite (Option.elim · Answer.error Answer.value)]
  rfl

/-! ## The statement -/

/-- Settles O51, clause by clause: each request by the lemma on the model's function that answers it. -/
theorem cogorServices : Obligations.CogorServices := by
  unfold Obligations.CogorServices
  refine ⟨fun s bits => ?mailbox, fun s nonce b signed h5 => ?spdm, fun s img d n h3 => ?pldm⟩
  case mailbox =>
    refine ⟨?svncommit, ?partcfg, ?retire, ?retireDone, ?dumpclrFree, ?dumpclrHeld, ?dumpclrAlarm, ?domid, ?bar0⟩
    case svncommit => exact fun hb h6 => ⟨_, rfl, s.svncommitWrite_running bits hb h6⟩
    case partcfg => exact ⟨_, rfl, s.partcfgWrite_eq bits⟩
    case retire =>
      intro hb ht hd hr hg
      obtain ⟨⟨heq, hasks⟩, hbusy⟩ := s.retireWrite_spec bits hb ht hd hr hg
      exact ⟨_, rfl, heq, hbusy, fun k => (hasks k).1⟩
    case retireDone => exact fun t hd hf => ⟨_, execRetireDone_free s t hd hf, rfl⟩
    case dumpclrFree =>
      intro hb ha hn
      have hw := s.dumpclrWrite_free bits hb ha hn
      exact ⟨_, congrArg Host.Outcome.next hw, s.memGet_clearValid_top, s.memGet_clearValid_other, rfl⟩
    case dumpclrHeld =>
      intro hb ha hh
      have hw := s.dumpclrWrite_held bits hb ha hh
      exact ⟨_, congrArg Host.Outcome.next hw, s.mem_sendSnoops _ _ (s.mem_snoopsFor dumpBase rfl hh), rfl⟩
    case dumpclrAlarm => exact fun ha => congrArg Host.Outcome.next (s.dumpclrWrite_alarm bits ha)
    case domid => exact fun v => ⟨_, rfl, rfl⟩
    case bar0 =>
      intro fn n h5 hfn
      have hw (n : Nat) := s.barWrite_partcfg fn n bits (s.barOffset_partcfg fn h5 hfn)
      exact ⟨⟨_, congrArg Host.Outcome.next (hw 8), s.partcfgWrite_eq bits⟩,
        fun hn => congrArg Host.Outcome.next ((hw n).trans (if_neg hn))⟩
  case spdm =>
    refine ⟨?version, ?capabilities, ?algorithms, fun hn => ⟨?all, ?block, ?signed, ?chain, ?keyless⟩, ?early⟩
    case version => exact ⟨_, execGetVersion_anew s h5, rfl⟩
    case capabilities => exact fun hv => ⟨_, execGetCapabilities_versioned s h5 hv, rfl⟩
    case algorithms => exact fun hc => ⟨_, execNegotiateAlgorithms_capable s h5 hc, rfl⟩
    case all => exact ⟨_, execGetMeasurements_all s nonce false h5 hn, hn ▸ s.reply_eq _⟩
    case block => exact fun h1 h4 => ⟨_, execGetMeasurements_block s nonce b false h5 hn ⟨h1, h4⟩, hn ▸ s.reply_eq _⟩
    case signed =>
      intro hk
      have signs (i : Instr) (blocks) (hi : exec i s = .next (s.report blocks nonce)) :=
        s.signsReport_of_report nonce i blocks hi (s.cogor.hasKeys_iff.2 hk)
      exact ⟨signs _ _ (execChallenge_negotiated s nonce h5 hn), signs _ _ (execGetMeasurements_all s nonce true h5 hn),
        fun h1 h4 => signs _ _ (execGetMeasurements_block s nonce b true h5 hn ⟨h1, h4⟩)⟩
    case chain =>
      intro hk
      have gives (i : Instr) (g) (hi : exec i s = .next (s.withKeys fun u => u.reply (.spdm [g u.cogor.chain] [] [] []))) :=
        s.givesChain_of_withKeys i g hi (s.cogor.hasKeys_iff.2 hk) hn
      exact List.forall_mem_cons.2 ⟨gives _ _ (execGetDigests_negotiated s h5 hn),
        List.forall_mem_singleton.2 (gives _ id (execGetCertificate_negotiated s h5 hn))⟩
    case keyless => exact fun hk => exec_chain_keyless s h5 hn (by simpa using mt s.cogor.hasKeys_iff.1 hk)
    case early => exact fun hn i hi => ⟨_, exec_not_negotiated s nonce b signed h5 hn i hi, rfl⟩
  case pldm =>
    refine ⟨?transfer, ?accepts, ?rejects, ?activates, ?waits, ?sensors⟩
    case transfer => exact ⟨_, if_pos (s.pldmOpen_of_stage h3), rfl⟩
    case accepts => exact fun hg => ⟨_, execVerifyImage_open s h3, by rw [if_pos hg, decide_eq_true hg]⟩
    case rejects => exact fun hg => ⟨_, execVerifyImage_open s h3, by rw [if_neg hg, decide_eq_false hg]⟩
    case activates =>
      exact fun hv hd hc => ⟨_, execActivateFirmware_verified s 2 h3 hv, (if_neg (by simp [hd])).trans (s.activate_both hc)⟩
    case waits =>
      intro hv hd k
      exact (execActivateFirmware_verified s k h3 hv).trans (congrArg _ (if_pos (Option.isSome_iff_ne_none.2 hd)))
    case sensors =>
      intro h7 hd
      have reads := execGetSensorReading_eq s d n h3 h7 hd
      refine ⟨fun hn => ⟨_, reads, by rw [MDie.sensor?, if_pos hn]; rfl⟩, ?_, ?_, ?_⟩ <;> rintro rfl <;> exact ⟨_, reads, rfl⟩

end Sys2Proof.Machine
